-- ==== Sys2Proof/Word.lean ====
section
/-! DEFINITION. The word types of OWBM and the small field types of a Command Record
(00_scope.md R11, 30_encoding.md R110, R113). -/

namespace Sys2Proof

/-- A byte of a bridge register, of a buffer or of the wire (R11). -/
abbrev Byte := BitVec 8

/-- The value or the index field of a Command Record, 16 bits each (R11, R110). -/
abbrev Half := BitVec 16

/-- A Command Record as the one word `cat ‖ value ‖ index` of R110. -/
abbrev CmdWord := BitVec 40

/-- A ROM identifier: 64 bits, byte 0 least significant (20_memory.md R84). -/
abbrev Rom := BitVec 64

/-- The option bits of a comm record whose names are the document's (R113, R117). Bit 3 of the
value is an operand of the command and stands with the command. -/
structure CommOpts where
  /-- "immediate" -/
  im : Bool
  /-- "strong-pullup" -/
  spu : Bool
  /-- "reset-after" -/
  ra : Bool
  /-- "after-completion" -/
  ac : Bool
  deriving DecidableEq, Repr, Inhabited

/-- Which pulse or which duration `TYPE` selects (R119): 0 strong pull-up, 1 programming pulse. -/
inductive PulseKind where
  | spu
  | prg
  deriving DecidableEq, Repr, Inhabited

/-- `TYPE` as the bit it is in the record (R119). -/
def PulseKind.bit : PulseKind → Bool
  | .spu => false
  | .prg => true

/-- The three categories of a Command Record (30_encoding.md R111). -/
inductive Category where
  | control
  | comm
  | mode
  deriving DecidableEq, Repr, Inhabited

/-- The search modes (45_search.md R293). -/
inductive SearchMode where
  | normal
  | alarm
  deriving DecidableEq, Repr, Inhabited

end Sys2Proof
end

