-- ==== Sys2Proof/Syntax.lean ====
section
/-! DEFINITION. The 21 Command Records, one constructor per row of spec/opcode_table.json
(30_encoding.md R115, R116, R120). -/

namespace Sys2Proof

/-- A decoded Command Record. The index of a control record other than a flush is ignored (R112) and
has no operand here; `COMM_SEARCH_ACCESS` keeps its free index (R119). -/
inductive Instr where
  | ctlResetDevice
  | ctlResumeExe
  | ctlHaltExe
  | ctlFlushComm
  | ctlFlushRead
  | ctlFlushWrite
  | commSetDuration (o : CommOpts) (type : PulseKind) (code : Byte)
  | commBitIo (o : CommOpts) (d : Bool)
  | commPulse (o : CommOpts) (type : PulseKind)
  | commOnewireReset (o : CommOpts) (se : Bool) (speed : Byte)
  | commByteIo (o : CommOpts) (x : Byte)
  | commBlockIo (o : CommOpts) (n : Half)
  | commSearchAccess (o : CommOpts) (index : Half)
  | modePulseEn (spue prge : Bool)
  | modeSpeedChangeEn (spce : Bool)
  | modeBusSpeed (speed : Byte)
  | modePullupDuration (code : Byte)
  | modeSlewRate (code : Byte)
  | modePulseDuration (code : Byte)
  | modeTiming0 (code : Byte)
  | modeTiming1 (code : Byte)
  deriving DecidableEq, Repr, Inhabited

end Sys2Proof
end

