-- ==== Sys2Proof/Machine/Ports.lean ====
section
/-! DEFINITION. What crosses the edges of the block: HOST operations and their answers, the WIRE,
the moves of the environment (10_state.md R34 to R39, 30_encoding.md R130, 60_exceptions.md R320). -/

namespace Sys2Proof.Machine

/-! ### The operation port -/

/-- The 19 operation mnemonics (R130): the values of `SEQ.op` other than `NONE`. -/
inductive OpName where
  | acquire | release | recover | shortchk | startpulse | setspeed | cmd
  | reset | touchbit | wrbit | rdbit | rdbyte | wrbyte | rdblock | wrblock | triplet
  | srchReset | srchNext | search
  deriving DecidableEq, Repr, Inhabited

/-- The symbolic names of commands (30_encoding.md R115, R116, R120). -/
inductive CmdName where
  | resetDevice | resumeExe | haltExe | flush
  | setDuration | bitIo | pulse | onewireReset | byteIo | blockIo | searchAccess
  | pulseEn | speedChangeEn | busSpeed | pullupDuration | slewRate | pulseDuration
  | timing0 | timing1
  deriving DecidableEq, Repr, Inhabited

/-- The category whose list a name stands in (R115, R116, R120). -/
def CmdName.category : CmdName → Category
  | .resetDevice | .resumeExe | .haltExe | .flush => .control
  | .setDuration | .bitIo | .pulse | .onewireReset | .byteIo | .blockIo | .searchAccess => .comm
  | .pulseEn | .speedChangeEn | .busSpeed | .pullupDuration => .mode
  | .slewRate | .pulseDuration | .timing0 | .timing1 => .mode

/-- What `CMD` asks `Encode` for (R125, R244): `Encode(cat, name, opts, operand)`, any of them in any
combination, reserved ones too. `b3` is the operand at bit 3 of a comm value (`D`, `SE`, `TYPE`). -/
structure CmdRequest where
  cat : Category
  name : CmdName
  opts : CommOpts
  b3 : Bool
  operand : Nat
  deriving DecidableEq, Repr, Inhabited

/-- A poll bound the HOST may configure: at least 1 (10_state.md R43). -/
abbrev PollBound := { n : Nat // 1 ≤ n }

/-- An operation with its operands as the HOST presents them (R130), in range or not (R132).
`ACQUIRE` carries what the HOST configures, `none` meaning the default (R43, R240); `CMD` carries a
symbolic request, its `DATA_OUT` bytes and how many bytes to read back (R244); a search mode `none`
is a value that names no mode. -/
inductive HostOp where
  | acquire (pollMax : Option PollBound) (ctlTimeout bulkTimeout : Option Nat)
  | release
  | recover
  | shortchk
  | startpulse (ms : Nat)
  | setspeed (speed : Nat)
  | cmd (r : CmdRequest) (out : List Nat) (nIn : Nat)
  | reset
  | touchbit (b : Nat)
  | wrbit (b : Nat)
  | rdbit
  | rdbyte
  | wrbyte (x : Nat) (pulse : Option Nat)
  | rdblock (n : Nat)
  | wrblock (bytes : List Nat) (pulse : Option Nat)
  | triplet (d : Nat)
  | srchReset
  | srchNext (mode : Option SearchMode)
  | search (mode : Option SearchMode)
  deriving DecidableEq, Repr, Inhabited

/-- The mnemonic of an operation (R130). -/
def HostOp.name : HostOp → OpName
  | .acquire _ _ _ => .acquire
  | .release => .release
  | .recover => .recover
  | .shortchk => .shortchk
  | .startpulse _ => .startpulse
  | .setspeed _ => .setspeed
  | .cmd _ _ _ => .cmd
  | .reset => .reset
  | .touchbit _ => .touchbit
  | .wrbit _ => .wrbit
  | .rdbit => .rdbit
  | .rdbyte => .rdbyte
  | .wrbyte _ _ => .wrbyte
  | .rdblock _ => .rdblock
  | .wrblock _ _ => .wrblock
  | .triplet _ => .triplet
  | .srchReset => .srchReset
  | .srchNext _ => .srchNext
  | .search _ => .search

/-- The eight error kinds (R320). The first three and `callerError` are raised; the other four
name values that operations return. -/
inductive ErrorKind where
  | transportError
  | timeout
  | shortCircuit
  | emptyBus
  | echoMismatch
  | searchAborted
  | invalidRom
  | callerError
  deriving DecidableEq, Repr, Inhabited

/-- The codes of the error kinds (R320, decision D36). -/
def ErrorKind.code : ErrorKind → Nat
  | .transportError => 1
  | .timeout => 2
  | .shortCircuit => 3
  | .emptyBus => 4
  | .echoMismatch => 5
  | .searchAborted => 6
  | .invalidRom => 7
  | .callerError => 8

/-- Why a search pass yields no identifier (45_search.md R302). -/
inductive EndReason where
  | exhausted
  | emptyBus
  | aborted (i : Nat)
  | invalidRom (rom : Rom)
  deriving DecidableEq, Repr, Inhabited

/-- The error kind a termination reason names (R302); `EXHAUSTED` names none. -/
def EndReason.kind : EndReason → Option ErrorKind
  | .exhausted => none
  | .emptyBus => some .emptyBus
  | .aborted _ => some .searchAborted
  | .invalidRom _ => some .invalidRom

/-- What an operation returns when it raises nothing (R130). -/
inductive Result where
  | unit
  | pair (healthy vpp : Bool)
  | bool (b : Bool)
  | bit (b : Bool)
  | byte (x : Byte)
  | bytes (bs : List Byte)
  | triplet (idBit compBit taken : Bool)
  | abort
  | rom (r : Rom)
  | srchEnd (reason : EndReason)
  | roms (found : List Rom) (reason : EndReason)
  deriving DecidableEq, Repr, Inhabited

/-- The answer of the operation port: a result, or the error triple of R320 (kind, operation,
last status flags). -/
inductive Answer where
  | ok (r : Result)
  | error (kind : ErrorKind) (op : OpName) (lastSf : Byte)
  deriving DecidableEq, Repr, Inhabited

/-! ### The WIRE -/

/-- The answer of a reset cycle (R37). -/
structure ResetAnswer where
  presence : Bool
  short : Bool
  alarm : Bool
  deriving DecidableEq, Repr, Inhabited

/-- Protocol state of a slave of the reference bus (45_search.md R310). -/
inductive SlaveState where
  | cmd
  | search
  | off
  deriving DecidableEq, Repr, Inhabited

/-- A slave of the reference bus (R310): its identifier, its alarm condition, its protocol state,
the command bits received and their count, the search position and the phase within it. -/
structure Slave where
  rom : Rom
  alarm : Bool
  st : SlaveState
  cb : Byte
  ck : Nat
  i : Nat
  ph : Nat
  deriving DecidableEq, Repr, Inhabited

/-- The reference simulated bus (R310). -/
structure RefBus where
  slaves : List Slave
  shorted : Bool
  deriving DecidableEq, Repr, Inhabited

/-- The WIRE as the model holds it (R37): an oracle, with the answers the environment has lined up
for the next reset cycles and the next read slots (past their end every answer is a free value),
or the reference bus. -/
inductive Wire where
  | oracle (resets : List ResetAnswer) (levels : List Bool)
  | reference (bus : RefBus)
  deriving DecidableEq, Repr, Inhabited

/-! ### The moves -/

/-- What becomes of one Transport call (R36): it succeeds; it fails and the bridge never saw it; it
fails and the bridge saw it; a bulk read comes back cut to fewer than 16 bytes (R221, R321). -/
inductive Fate where
  | ok
  | lost
  | delivered
  | truncated (n : Fin 16)
  deriving DecidableEq, Repr, Inhabited

/-- One move of one agent (R31). `record`, `dataOut`, `dataIn` and `status` drive the Transport
directly (R122, 95_test_vectors.md P7); `host` presents an operation (R34); `seq` is the next
step of the sequencer, with the fate of the Transport call it makes, if it makes one; `brg` is the
next step of the bridge engine; `clock` lets time pass (R38); `inject` puts a result byte of the four bits
no command produces in the tail (60_exceptions.md R330); the rest are the environment's inputs and
events (R39) and a change of what is on the WIRE. -/
inductive Move where
  | record (w : CmdWord)
  | dataOut (bytes : List Byte)
  | dataIn (n : Nat)
  | status
  | host (op : HostOp)
  | seq (fate : Fate)
  | brg
  | clock (ms : Nat)
  | por
  | deviceDetect
  | inject (cmp crc rdp eos : Bool)
  | vppIn (b : Bool)
  | pmodIn (b : Bool)
  | rewire (w : Wire)
  deriving DecidableEq, Repr, Inhabited

/-- What an observer of the Transport and of the WIRE sees (00_scope.md R8), as it takes effect. A transfer
carries its arguments of R36: the request type of a control transfer, the endpoint of a bulk
transfer, and the timeout the sequencer holds for it (R43). R344 leaves the form of a trace open. Here
`status` shows the call without the bytes of the record returned, a call that failed after it took
effect looks like one that succeeded, and a call that failed without effect leaves no event (DESIGN
CHOICE, log 21). -/
inductive TraceEvent where
  | openDevice (vid pid : Nat)
  | claimInterface (iface : Nat)
  | setAltSetting (alt : Nat)
  | clearHalt (endpoint : Nat)
  | close
  | record (requestType : Nat) (w : CmdWord) (timeout : Nat)
  | status (endpoint timeout : Nat)
  | dataOut (endpoint : Nat) (bytes : List Byte) (timeout : Nat)
  | dataIn (endpoint : Nat) (bytes : List Byte) (timeout : Nat)
  | delay (ms : Nat)
  | wireReset (speed : Byte)
  | slot (wrote level : Bool)
  | pulse (kind : PulseKind) (code : Byte)
  deriving DecidableEq, Repr, Inhabited

end Sys2Proof.Machine
end

