-- ==== Sys2Proof/Config.lean ====
section
/-! DEFINITION. What an implementation of OWBM fixes: the numbers the document gives (00_scope.md R9),
the configuration fields of R10 and R18 (each a name; its reference value stands in
Machine/Reference.lean), the constants behind the OPEN parameters, and the free values of the
model. An `opaque` constant has no value anyone can see. -/

namespace Sys2Proof

/-! ### Configuration fields (R10, R18, 92_eei_decisions.md): a machine holds one `Config` in its state -/

/-- Control selectors and flush targets (30_encoding.md R115, D5). -/
structure ControlCodes where
  resetDevice : Half
  resumeExe : Half
  haltExe : Half
  flush : Half
  ftComm : Half
  ftRead : Half
  ftWrite : Half
  deriving DecidableEq, Repr

/-- Comm command codes, the bits that hold them, and the option masks (R116, R117, D6, D7). -/
structure CommCodes where
  setDuration : Half
  bitIo : Half
  pulse : Half
  onewireReset : Half
  byteIo : Half
  blockIo : Half
  searchAccess : Half
  /-- the bits of the value that name the command: `op` and `fx` (R113) -/
  codeMask : Half
  optIM : Half
  /-- `D`, `SE` or `TYPE` by command (R117) -/
  optB3 : Half
  optRA : Half
  optAC : Half
  optSPU : Half
  deriving DecidableEq, Repr

/-- Mode parameter ids, and the bits of the value of `MODE_PULSE_EN` (R120, D9, D12). -/
structure ModeCodes where
  pulseEn : Half
  speedChangeEn : Half
  busSpeed : Half
  pullupDuration : Half
  slewRate : Half
  pulseDuration : Half
  timing0 : Half
  timing1 : Half
  valSPUE : Half
  valPRGE : Half
  deriving DecidableEq, Repr

/-- Speed codes (10_state.md R51, D13). -/
structure SpeedCodes where
  regular : Byte
  flexible : Byte
  overdrive : Byte
  deriving DecidableEq, Repr

/-- Masks of the enable flags (R50, D12) and of the status flags (R56, D11). -/
structure FlagMasks where
  spue : Byte
  prge : Byte
  spce : Byte
  spua : Byte
  prga : Byte
  v12p : Byte
  pmod : Byte
  halt : Byte
  idle : Byte
  epof : Byte
  deriving DecidableEq, Repr

/-- `STATUS_LAYOUT` (R65, R66, D10): the offset of every fixed byte of the Status Record. -/
structure StatusLayout where
  en : Nat
  speed : Nat
  spud : Nat
  pdur0 : Nat
  pdur1 : Nat
  pdur2 : Nat
  pdur3 : Nat
  slew : Nat
  rsv0 : Nat
  rsv1 : Nat
  sf : Nat
  cmdLo : Nat
  cmdHi : Nat
  cbuf : Nat
  wbuf : Nat
  rbuf : Nat
  deriving DecidableEq, Repr

/-- Which of two rules a machine follows where the spec's rules differ and no ruling of 90_conflicts.md or
92_eei_decisions.md sets one aside: the model admits both (DESIGN CHOICE, log 9, 18, 37). -/
structure Readings where
  /-- does a failed first or last `MODE_PULSE_EN` of `STARTPULSE` run the recovery attempt: no by R233,
  yes by R321 and R334 (log 18) -/
  pulseModeRecovers : Bool
  /-- is the last `MODE_PULSE_EN` of `STARTPULSE` left out when a poll of the operation has seen a `POR`: no
  by R233, yes by R332, which keeps `EN` 0 until the next `InitSequence` (log 37) -/
  porEndsPulse : Bool
  /-- does a flush break the hazard rule while a halted record waits: no by R154, yes by R380 (log 9) -/
  waitingBlocksFlush : Bool
  deriving DecidableEq, Repr, Inhabited

/-- The configuration of a machine: every named parameter of R10 (log 6, log 7), and which of two rules it
follows where they differ (log 9, 18, 37). No step changes it. -/
structure Config where
  /-- category codes (R111, D4) -/
  catControl : Byte
  catComm : Byte
  catMode : Byte
  ctl : ControlCodes
  comm : CommCodes
  mode : ModeCodes
  speeds : SpeedCodes
  flags : FlagMasks
  layout : StatusLayout
  /-- the duration code of an endless pull-up (R52, D14) -/
  spudInfinite : Byte
  /-- microseconds per step of the programming-pulse code (R53, D14, U20) -/
  ppdUnitUs : Nat
  /-- `INIT_PPD_CODE` (D14) -/
  initPpdCode : Byte
  /-- `CHUNK_MAX` (D30) -/
  chunkMax : Nat
  /-- `BUF_CAP` (D42) -/
  bufCap : Nat
  /-- `T_POLL` in milliseconds (D25) -/
  tPoll : Nat
  /-- `CTL_TIMEOUT` (D25) -/
  ctlTimeout : Nat
  /-- `BULK_TIMEOUT` (D25) -/
  bulkTimeout : Nat
  /-- the constant `requestType` of a control transfer (R36) -/
  requestType : Nat
  /-- `EP_STATUS` (20_memory.md R82, D15) -/
  epStatus : Nat
  /-- `EP_DATA_OUT` -/
  epDataOut : Nat
  /-- `EP_DATA_IN` -/
  epDataIn : Nat
  /-- `VID` (D15) -/
  vid : Nat
  /-- `PID` -/
  pid : Nat
  /-- `IFACE` -/
  iface : Nat
  /-- `ALTSET` -/
  altset : Nat
  /-- which of two rules the machine follows where they differ -/
  readings : Readings
  deriving DecidableEq, Repr

namespace Config

/-! ### Numbers the document fixes (R9, R67) -/

/-- `POLL_MAX` (R9). -/
def pollMax : Nat := 100
/-- `MAX_BLOCK`, 64 KiB (R9). -/
def maxBlock : Nat := 65536
/-- `T_RESET_COMPLIANCE` in milliseconds (R9). -/
def tResetCompliance : Nat := 5
/-- `STATUS_FIXED_LEN` (R9). -/
def statusFixedLen : Nat := 16
/-- `DEVICE_DETECT` (R9, R67). -/
def deviceDetect : Byte := 0xA5#8
/-- `CMD_SEARCH_NORMAL` (R9). -/
def cmdSearchNormal : Byte := 0xF0#8
/-- `CMD_SEARCH_ALARM` (R9). -/
def cmdSearchAlarm : Byte := 0xEC#8
/-- `CRC8_POLY` 0x31 with its bits reversed, as R304 uses it. -/
def crc8Reflected : Byte := 0x8C#8
/-- `DUR_SHIFT` (R9). -/
def durShift : Nat := 4
/-- The longest pulse request whose code fits 8 bits (R132, R232). -/
def maxPulseMs : Nat := 4079
/-- Microseconds per step of the strong pull-up code: code `c` means `16 * c` ms (R52). -/
def spudUnitUs : Nat := 16000

/-- Result-register bits (R67). -/
def rrNRS : Byte := 0x01#8
def rrSH : Byte := 0x02#8
def rrAPP : Byte := 0x04#8
def rrVPP : Byte := 0x08#8
def rrCMP : Byte := 0x10#8
def rrCRC : Byte := 0x20#8
def rrRDP : Byte := 0x40#8
def rrEOS : Byte := 0x80#8

/-! ### Values behind the OPEN parameters (R10, U19): no value is given, so none is seen -/

/-- `T_POLL`. -/
opaque openTPoll : Nat
/-- `CTL_TIMEOUT`. -/
opaque openCtlTimeout : Nat
/-- `BULK_TIMEOUT`. -/
opaque openBulkTimeout : Nat
/-- `requestType` (91_not_in_source.md N6). -/
opaque openRequestType : Nat
/-- `VID`. -/
opaque openVid : Nat
/-- `PID`. -/
opaque openPid : Nat
/-- `IFACE`. -/
opaque openIface : Nat
/-- `ALTSET`. -/
opaque openAltset : Nat
/-- By how much `BUF_CAP` exceeds `CHUNK_MAX` (D42). -/
opaque bufSlack : Nat

/-- Which of two differing rules a machine follows (log 9, 18, 37). -/
opaque openReadings : Readings

/-! ### Free values, each applied to the counter of draws (log 1, 3, 5) -/

/-- `draw(byte)` (R14, R71). -/
opaque freeByte : Nat → Byte
/-- A sampled level of a read slot that nothing constrains (R37, U15). -/
opaque freeLevel : Nat → Bool
/-- The answer of a reset cycle that nothing constrains (R37, U15). -/
opaque freeReset : Nat → Machine.ResetAnswer
/-- The next move when the environment has lined none up (R31, D41). -/
opaque freeMove : Nat → Machine.Move

/-! ### What a configuration gives a name -/

/-- The code of a category (R111). -/
def categoryCode (c : Config) : Category → Byte
  | .control => c.catControl
  | .comm => c.catComm
  | .mode => c.catMode

/-- The value code of a command name: selector, comm code or mode id (R115, R116, R120). -/
def code (c : Config) : Machine.CmdName → Half
  | .resetDevice => c.ctl.resetDevice
  | .resumeExe => c.ctl.resumeExe
  | .haltExe => c.ctl.haltExe
  | .flush => c.ctl.flush
  | .setDuration => c.comm.setDuration
  | .bitIo => c.comm.bitIo
  | .pulse => c.comm.pulse
  | .onewireReset => c.comm.onewireReset
  | .byteIo => c.comm.byteIo
  | .blockIo => c.comm.blockIo
  | .searchAccess => c.comm.searchAccess
  | .pulseEn => c.mode.pulseEn
  | .speedChangeEn => c.mode.speedChangeEn
  | .busSpeed => c.mode.busSpeed
  | .pullupDuration => c.mode.pullupDuration
  | .slewRate => c.mode.slewRate
  | .pulseDuration => c.mode.pulseDuration
  | .timing0 => c.mode.timing0
  | .timing1 => c.mode.timing1

/-- The value bits of a comm record that are no option, `op` or `fx`: they must be 0 (R113, R117). -/
def commReserved (c : Config) : Half :=
  ~~~(c.comm.codeMask ||| c.comm.optIM ||| c.comm.optB3 ||| c.comm.optRA ||| c.comm.optAC
    ||| c.comm.optSPU)

end Config

end Sys2Proof
end

