-- ==== Sys2Proof/Machine/Reference.lean ====
section
/-! DEFINITION. The reference binding: the default of every configuration field (00_scope.md R10, R18,
92_eei_decisions.md D4 to D15, D25, D30, D42; log 6, 7, 25, 26). -/

namespace Sys2Proof.Config

/-- Control selectors and flush targets (30_encoding.md R115, D5). -/
def referenceControl : ControlCodes :=
  { resetDevice := 0x0000#16, resumeExe := 0x0002#16, haltExe := 0x0003#16, flush := 0x0007#16,
    ftComm := 0x0000#16, ftRead := 0x0001#16, ftWrite := 0x0002#16 }

/-- Comm codes and option masks (R113, R116, R117, D6, D7). -/
def referenceComm : CommCodes :=
  { setDuration := 0x0012#16, bitIo := 0x0020#16, pulse := 0x0030#16, onewireReset := 0x0042#16,
    byteIo := 0x0052#16, blockIo := 0x0074#16, searchAccess := 0x00F4#16, codeMask := 0x00F6#16,
    optIM := 0x0001#16, optB3 := 0x0008#16, optRA := 0x0100#16, optAC := 0x0400#16,
    optSPU := 0x1000#16 }

/-- Mode ids and the bits of `MODE_PULSE_EN` (R120, D9, D12). -/
def referenceMode : ModeCodes :=
  { pulseEn := 0x0000#16, speedChangeEn := 0x0001#16, busSpeed := 0x0002#16,
    pullupDuration := 0x0003#16, slewRate := 0x0004#16, pulseDuration := 0x0005#16,
    timing0 := 0x0006#16, timing1 := 0x0007#16, valSPUE := 0x0001#16, valPRGE := 0x0002#16 }

/-- Flag masks (10_state.md R50, R56, D11, D12). -/
def referenceFlags : FlagMasks :=
  { spue := 0x01#8, prge := 0x02#8, spce := 0x04#8, spua := 0x01#8, prga := 0x02#8, v12p := 0x04#8,
    pmod := 0x08#8, halt := 0x10#8, idle := 0x20#8, epof := 0x80#8 }

/-- `STATUS_LAYOUT` (R65, D10). -/
def referenceLayout : StatusLayout :=
  { en := 0, speed := 1, spud := 2, pdur0 := 3, pdur1 := 4, pdur2 := 5, pdur3 := 6, slew := 7,
    rsv0 := 8, rsv1 := 9, sf := 10, cmdLo := 11, cmdHi := 12, cbuf := 13, wbuf := 14, rbuf := 15 }

/-- The reference configuration. -/
def reference : Config :=
  { catControl := 0x00#8, catComm := 0x01#8, catMode := 0x02#8,
    ctl := referenceControl, comm := referenceComm, mode := referenceMode,
    speeds := { regular := 0x00#8, flexible := 0x01#8, overdrive := 0x02#8 },
    flags := referenceFlags, layout := referenceLayout,
    spudInfinite := 0x00#8, ppdUnitUs := 8, initPpdCode := 0x40#8,
    chunkMax := 64, bufCap := bufSlack + 64,
    tPoll := openTPoll, ctlTimeout := openCtlTimeout, bulkTimeout := openBulkTimeout,
    requestType := openRequestType,
    epStatus := 1, epDataOut := 2, epDataIn := 3,
    vid := openVid, pid := openPid, iface := openIface, altset := openAltset,
    readings := openReadings }

end Sys2Proof.Config
end

