-- ==== Sys2Proof/WellFormed.lean ====
section
/-! DEFINITION. Which records are not reserved: the option table of 30_encoding.md R118 and the
operand constraints of R119 and R120. -/

namespace Sys2Proof

/-- The legal speed codes (10_state.md R51). -/
def legalSpeed (c : Config) (v : Byte) : Bool :=
  v == c.speeds.regular || v == c.speeds.flexible || v == c.speeds.overdrive

/-- The commands that take neither `SPU` nor `RA` (R118). -/
def CommOpts.noEpilogue (o : CommOpts) : Bool := !o.spu && !o.ra

/-- A record that R121 does not call reserved under this configuration. Field widths and the bits
that must be 0 hold by the types of `Instr`'s operands. -/
def Instr.wellFormed (c : Config) : Instr → Bool
  | .ctlResetDevice => true
  | .ctlResumeExe => true
  | .ctlHaltExe => true
  | .ctlFlushComm => true
  | .ctlFlushRead => true
  | .ctlFlushWrite => true
  | .commSetDuration o _ _ => o.noEpilogue
  | .commBitIo _ _ => true
  | .commPulse o _ => o.noEpilogue
  | .commOnewireReset o se speed => o.noEpilogue && (if se then legalSpeed c speed else speed == 0#8)
  | .commByteIo _ _ => true
  | .commBlockIo _ n => decide (1 ≤ n.toNat) && decide (n.toNat ≤ c.chunkMax)
  | .commSearchAccess _ _ => true
  | .modePulseEn _ _ => true
  | .modeSpeedChangeEn _ => true
  | .modeBusSpeed speed => legalSpeed c speed
  | .modePullupDuration _ => true
  | .modeSlewRate _ => true
  | .modePulseDuration _ => true
  | .modeTiming0 _ => true
  | .modeTiming1 _ => true

end Sys2Proof
end

