-- ==== Sys2Proof/Decode.lean ====
section
/-! DEFINITION. The decoder and the encoder of Command Records (30_encoding.md R112 to R125). -/

namespace Sys2Proof

/-! ### Fields of the record word (R110) -/

/-- `W[39:32]`. -/
def CmdWord.cat (w : CmdWord) : Byte := w.extractLsb' 32 8
/-- `W[31:16]`. -/
def CmdWord.value (w : CmdWord) : Half := w.extractLsb' 16 16
/-- `W[15:0]`. -/
def CmdWord.index (w : CmdWord) : Half := w.extractLsb' 0 16
/-- `cat ‖ value ‖ index`. -/
def cmdWord (cat : Byte) (value index : Half) : CmdWord := cat ++ value ++ index

/-- Bits 7:0 of an index. -/
def Half.low (h : Half) : Byte := h.extractLsb' 0 8
/-- Bits 15:8 of an index. -/
def Half.high (h : Half) : Byte := h.extractLsb' 8 8
/-- `zext_16`. -/
def zext16 (b : Byte) : Half := b.setWidth 16

/-! ### Decoding -/

/-- Why a record is reserved, in the order R121 tests. -/
inductive DecodeError where
  | category
  | selector
  | flushTarget
  | reservedBits
  | commCode
  | forbiddenOption
  | operand
  | modeId
  | modeValue
  deriving DecidableEq, Repr

/-- Is every bit of `mask` clear in `v`? -/
def Half.clear (v mask : Half) : Bool := v &&& mask == 0#16

/-- The named options of a comm value (R117). -/
def decodeOpts (c : Config) (v : Half) : CommOpts :=
  { im := !v.clear c.comm.optIM, spu := !v.clear c.comm.optSPU,
    ra := !v.clear c.comm.optRA, ac := !v.clear c.comm.optAC }

/-- Bit 3 of a comm value (R113, R183). -/
def decodeB3 (c : Config) (v : Half) : Bool := !v.clear c.comm.optB3

/-- `TYPE` (R119). -/
def decodeType (c : Config) (v : Half) : PulseKind := if decodeB3 c v then .prg else .spu

/-- Step (2) of R121. -/
def decodeControl (c : Config) (value index : Half) : Except DecodeError Instr :=
  if value = c.ctl.resetDevice then .ok .ctlResetDevice
  else if value = c.ctl.resumeExe then .ok .ctlResumeExe
  else if value = c.ctl.haltExe then .ok .ctlHaltExe
  else if value = c.ctl.flush then
    if index = c.ctl.ftComm then .ok .ctlFlushComm
    else if index = c.ctl.ftRead then .ok .ctlFlushRead
    else if index = c.ctl.ftWrite then .ok .ctlFlushWrite
    else .error .flushTarget
  else .error .selector

/-- Accept a comm command when its options (R118) and its operand (R119) allow it. -/
def allowed (optionsOk operandOk : Bool) (i : Instr) : Except DecodeError Instr :=
  if !optionsOk then .error .forbiddenOption
  else if !operandOk then .error .operand
  else .ok i

/-- Step (3) of R121. -/
def decodeComm (c : Config) (value index : Half) : Except DecodeError Instr :=
  if !value.clear c.commReserved then .error .reservedBits
  else
    let code := value &&& c.comm.codeMask
    let o := decodeOpts c value
    let b3 := decodeB3 c value
    let lo := index.low
    let hiClear := index.high == 0#8
    if code = c.comm.setDuration then
      allowed o.noEpilogue hiClear (.commSetDuration o (decodeType c value) lo)
    else if code = c.comm.bitIo then
      allowed true (index == 0#16) (.commBitIo o b3)
    else if code = c.comm.pulse then
      allowed o.noEpilogue (index == 0#16) (.commPulse o (decodeType c value))
    else if code = c.comm.onewireReset then
      allowed o.noEpilogue (hiClear && (if b3 then legalSpeed c lo else lo == 0#8))
        (.commOnewireReset o b3 lo)
    else if code = c.comm.byteIo then
      allowed (!b3) hiClear (.commByteIo o lo)
    else if code = c.comm.blockIo then
      allowed (!b3) (decide (1 ≤ index.toNat) && decide (index.toNat ≤ c.chunkMax))
        (.commBlockIo o index)
    else if code = c.comm.searchAccess then
      allowed (!b3) true (.commSearchAccess o index)
    else .error .commCode

/-- Accept a mode command when its value is one R120 allows. -/
def admitMode (valueOk : Bool) (i : Instr) : Except DecodeError Instr :=
  if valueOk then .ok i else .error .modeValue

/-- Step (4) of R121. -/
def decodeMode (c : Config) (value index : Half) : Except DecodeError Instr :=
  let v := index.low
  let hiClear := index.high == 0#8
  if value = c.mode.pulseEn then
    admitMode (index.clear (~~~(c.mode.valSPUE ||| c.mode.valPRGE)))
      (.modePulseEn (!index.clear c.mode.valSPUE) (!index.clear c.mode.valPRGE))
  else if value = c.mode.speedChangeEn then
    admitMode (index.clear 0xFFFE#16) (.modeSpeedChangeEn (index.getLsbD 0))
  else if value = c.mode.busSpeed then
    admitMode (hiClear && legalSpeed c v) (.modeBusSpeed v)
  else if value = c.mode.pullupDuration then admitMode hiClear (.modePullupDuration v)
  else if value = c.mode.slewRate then admitMode hiClear (.modeSlewRate v)
  else if value = c.mode.pulseDuration then admitMode hiClear (.modePulseDuration v)
  else if value = c.mode.timing0 then admitMode hiClear (.modeTiming0 v)
  else if value = c.mode.timing1 then admitMode hiClear (.modeTiming1 v)
  else .error .modeId

/-- The decoder of R121, total on every record word. -/
def decode (c : Config) (w : CmdWord) : Except DecodeError Instr :=
  if w.cat = c.catControl then decodeControl c w.value w.index
  else if w.cat = c.catComm then decodeComm c w.value w.index
  else if w.cat = c.catMode then decodeMode c w.value w.index
  else .error .category

/-! ### Encoding (R125) -/

/-- The category of a record (R111). -/
def Instr.category : Instr → Category
  | .ctlResetDevice | .ctlResumeExe | .ctlHaltExe => .control
  | .ctlFlushComm | .ctlFlushRead | .ctlFlushWrite => .control
  | .commSetDuration _ _ _ | .commBitIo _ _ | .commPulse _ _ => .comm
  | .commOnewireReset _ _ _ | .commByteIo _ _ | .commBlockIo _ _ => .comm
  | .commSearchAccess _ _ => .comm
  | .modePulseEn _ _ | .modeSpeedChangeEn _ | .modeBusSpeed _ => .mode
  | .modePullupDuration _ | .modeSlewRate _ | .modePulseDuration _ => .mode
  | .modeTiming0 _ | .modeTiming1 _ => .mode

/-- A mask when its option is set. -/
def optMask (b : Bool) (mask : Half) : Half := if b then mask else 0#16

/-- The value field of a comm record: the code OR the masks of the options (R113). -/
def commValue (c : Config) (code : Half) (o : CommOpts) (b3 : Bool) : Half :=
  code ||| optMask o.im c.comm.optIM ||| optMask b3 c.comm.optB3 ||| optMask o.ra c.comm.optRA
    ||| optMask o.ac c.comm.optAC ||| optMask o.spu c.comm.optSPU

/-- The value field of a record (R125). -/
def Instr.value (c : Config) : Instr → Half
  | .ctlResetDevice => c.ctl.resetDevice
  | .ctlResumeExe => c.ctl.resumeExe
  | .ctlHaltExe => c.ctl.haltExe
  | .ctlFlushComm => c.ctl.flush
  | .ctlFlushRead => c.ctl.flush
  | .ctlFlushWrite => c.ctl.flush
  | .commSetDuration o type _ => commValue c c.comm.setDuration o type.bit
  | .commBitIo o d => commValue c c.comm.bitIo o d
  | .commPulse o type => commValue c c.comm.pulse o type.bit
  | .commOnewireReset o se _ => commValue c c.comm.onewireReset o se
  | .commByteIo o _ => commValue c c.comm.byteIo o false
  | .commBlockIo o _ => commValue c c.comm.blockIo o false
  | .commSearchAccess o _ => commValue c c.comm.searchAccess o false
  | .modePulseEn _ _ => c.mode.pulseEn
  | .modeSpeedChangeEn _ => c.mode.speedChangeEn
  | .modeBusSpeed _ => c.mode.busSpeed
  | .modePullupDuration _ => c.mode.pullupDuration
  | .modeSlewRate _ => c.mode.slewRate
  | .modePulseDuration _ => c.mode.pulseDuration
  | .modeTiming0 _ => c.mode.timing0
  | .modeTiming1 _ => c.mode.timing1

/-- The index field of a record (R119, R120, R125). -/
def Instr.index (c : Config) : Instr → Half
  | .ctlResetDevice | .ctlResumeExe | .ctlHaltExe => 0#16
  | .ctlFlushComm => c.ctl.ftComm
  | .ctlFlushRead => c.ctl.ftRead
  | .ctlFlushWrite => c.ctl.ftWrite
  | .commSetDuration _ _ code => zext16 code
  | .commBitIo _ _ => 0#16
  | .commPulse _ _ => 0#16
  | .commOnewireReset _ _ speed => zext16 speed
  | .commByteIo _ x => zext16 x
  | .commBlockIo _ n => n
  | .commSearchAccess _ index => index
  | .modePulseEn spue prge => optMask spue c.mode.valSPUE ||| optMask prge c.mode.valPRGE
  | .modeSpeedChangeEn spce => optMask spce 0x0001#16
  | .modeBusSpeed v => zext16 v
  | .modePullupDuration v => zext16 v
  | .modeSlewRate v => zext16 v
  | .modePulseDuration v => zext16 v
  | .modeTiming0 v => zext16 v
  | .modeTiming1 v => zext16 v

/-- The record word of an instruction (R110, R125). -/
def encode (c : Config) (i : Instr) : CmdWord :=
  cmdWord (c.categoryCode i.category) (i.value c) (i.index c)

/-! ### `Encode` of a symbolic request (R125) -/

namespace Machine

/-- The record `Encode` builds for a request, reserved or not (R125): a control record has an index only
for a flush; a comm record has the options and `B3` in its value; options mean nothing elsewhere. -/
def CmdRequest.word (c : Config) (r : CmdRequest) : CmdWord :=
  match r.cat with
  | .control =>
    cmdWord c.catControl (c.code r.name)
      (if r.name = .flush then BitVec.ofNat 16 r.operand else 0#16)
  | .comm =>
    cmdWord c.catComm (commValue c (c.code r.name) r.opts r.b3) (BitVec.ofNat 16 r.operand)
  | .mode => cmdWord c.catMode (c.code r.name) (BitVec.ofNat 16 r.operand)

/-- Does the name stand in the list of the category, and does the operand fit the index (R110, R115, R116,
R120; log 19)? -/
def CmdRequest.nameable (r : CmdRequest) : Bool :=
  r.name.category == r.cat && decide (r.operand < 65536)

/-- `Encode` (R125): `none` is its `CallerError`, for a request that is no record or a reserved one. -/
def encodeRequest (c : Config) (r : CmdRequest) : Option CmdWord :=
  if r.nameable then
    match decode c (r.word c) with
    | .ok _ => some (r.word c)
    | .error _ => none
  else none

end Machine

/-! ### The host's numbering -/

/-- The record word that an opcode-table word names: the table numbers bits as R110 does, and the bits
above `nbits` are 0 (log 24). -/
def tableWord (nbits w : Nat) : CmdWord := BitVec.ofNat 40 (w % 2 ^ nbits)

/-- What the decoder reads from a word of spec/opcode_table.json, whose numbers are the reference
binding's (30_encoding.md). -/
def decodeTableWord (nbits w : Nat) : Option Instr :=
  match decode Config.reference (tableWord nbits w) with
  | .ok i => some i
  | .error _ => none

end Sys2Proof
end

