-- ==== Sys2Proof/Machine/State.lean ====
section
/-! DEFINITION. The state of OWBM as plain data (10_state.md sections 2, 3 and 6), the reasons a step
stops, and the state after reset. -/

namespace Sys2Proof.Machine

/-! ### The sequencer -/

/-- `SEQ.handle` (R40). -/
inductive Handle where
  | closed
  | opened
  deriving DecidableEq, Repr, Inhabited

/-- How an operation's values become its result (R130). -/
inductive AnswerKind where
  | unit
  | pair
  | present
  | bit
  | byte
  | bytes
  | flag
  | triplet
  deriving DecidableEq, Repr, Inhabited

/-- One micro-step of the sequencer (R31, 43_sequencer_primitives.md, 44_busmaster_ops.md,
45_search.md). `tryBegin` and `endRecover` bracket a `try` whose handler is the recovery attempt
(R225, R233, R260); `endDrop` closes `try InitSequence() catch any: skip` (R229); `reraise`
surfaces the error kept through the attempt (R334, R335). -/
inductive Micro where
  | openDevice
  | claimInterface
  | setAltSetting
  | clearHalt (endpoint : Nat)
  | configure (pollMax ctlTimeout bulkTimeout : Nat)
  | close
  | ctl (w : CmdWord)
  | writeOut (bytes : List Byte)
  | readIn (n : Nat)
  | pollStart
  | pollRead
  | pollReset (idle : Bool)
  | delay (ms : Nat)
  | wait (due : Nat)
  | shortCheck
  | tryBegin
  | endRecover
  | endDrop
  | reraise (e : ErrorKind)
  | setSpeed (speed : Byte)
  | resetTail
  | pulseEnd
  | block (rest : List Byte)
  | checkByte (x : Byte)
  | checkBlock (bytes : List Byte)
  | tripletId
  | tripletComp (d : Bool)
  | tripletDone
  | srchReset
  | srchBegin (mode : SearchMode)
  | srchPresent (mode : SearchMode)
  | srchFirst (mode : SearchMode)
  | srchPropose (mode : SearchMode)
  | srchBit (mode : SearchMode)
  | srchCommit (mode : SearchMode)
  | answer (kind : AnswerKind)
  deriving DecidableEq, Repr, Inhabited

/-- Search State `SS` (R47): the sentinel `NONE` is `none` (45_search.md R291). -/
structure SearchState where
  lastDiscrepancy : Option Nat
  lastDeviceFlag : Bool
  currentRom : Rom
  deriving DecidableEq, Repr, Inhabited

/-- A fresh Search State (R47, 45_search.md R292). -/
def SearchState.fresh : SearchState :=
  { lastDiscrepancy := none, lastDeviceFlag := false, currentRom := 0#64 }

/-- The sequencer (R40 to R48). The fields from `bytes` on are the local variables of the
micro-sequences and the answer of the operation port (log 15). -/
structure Seq where
  /-- R40 -/
  handle : Handle
  /-- R41 -/
  busy : Bool
  /-- R42 -/
  speed : Byte
  /-- R43 -/
  pollMax : Nat
  /-- R43 -/
  ctlTimeout : Nat
  /-- R43 -/
  bulkTimeout : Nat
  /-- R44 -/
  present : Bool
  /-- R44 -/
  vpp : Bool
  /-- R45 -/
  rtail : List Byte
  /-- R46 -/
  lastSf : Byte
  /-- R47 -/
  ss : SearchState
  /-- R48; `none` is `NONE` -/
  op : Option OpName
  /-- R48: the micro-steps still to run -/
  phase : List Micro
  /-- R48: poll attempts made -/
  n : Nat
  /-- R48: search bit index -/
  i : Nat
  /-- R48; `none` is `NONE` -/
  lastZero : Option Nat
  /-- R48 -/
  workRom : Rom
  /-- bytes read from `DATA_IN` and not yet used by the operation -/
  bytes : List Byte
  /-- first component of the last short check (R226) -/
  healthy : Bool
  /-- first probe of the triplet (R275) -/
  idBit : Bool
  /-- second probe of the triplet (R275) -/
  compBit : Bool
  /-- direction taken by the triplet, `none` after an abort (R275) -/
  taken : Option Bool
  /-- mismatch or ok flag of a write (R267, R272) -/
  flag : Bool
  /-- a poll of this operation has seen `EPOF` (R223, R332) -/
  porSeen : Bool
  /-- identifiers a `SEARCH` has collected (R301) -/
  found : List Rom
  /-- what the operation port last answered (R34) -/
  answer : Option Answer
  deriving DecidableEq, Repr, Inhabited

/-- The sequencer at its own reset (R70, column "model start"). -/
def Seq.reset (c : Config) : Seq :=
  { handle := .closed, busy := false, speed := c.speeds.regular, pollMax := Config.pollMax,
    ctlTimeout := c.ctlTimeout, bulkTimeout := c.bulkTimeout,
    present := false, vpp := false, rtail := [], lastSf := 0#8, ss := .fresh,
    op := none, phase := [], n := 0, i := 0, lastZero := none, workRom := 0#64,
    bytes := [], healthy := false, idBit := false, compBit := false, taken := none, flag := false,
    porSeen := false, found := [], answer := none }

/-! ### The bridge engine -/

/-- `BRG.fault` (R62). -/
inductive BrgFault where
  | none
  | desync
  deriving DecidableEq, Repr, Inhabited

/-- `BRG.exec` (R63). -/
inductive Exec where
  | idle
  | busy
  deriving DecidableEq, Repr, Inhabited

/-- What is left of a pulse (R64), in microseconds (log 13). -/
inductive Remaining where
  | finite (us : Nat)
  | infinite
  deriving DecidableEq, Repr, Inhabited

/-- `BRG.pulse` (R64). -/
inductive Pulse where
  | off
  | spu (left : Remaining)
  | prg (left : Remaining)
  deriving DecidableEq, Repr, Inhabited

/-- Where between `Start` and `Complete` the engine stands (41_comm_commands.md R170): the body, the
reset epilogue, the pull-up epilogue, a pulse being delivered, completion (log 11). -/
inductive Stage where
  | body
  | resetAfter
  | pullUp
  | pulsing
  | finish
  deriving DecidableEq, Repr, Inhabited

/-- The bridge engine (R50 to R64). `SF` (R56) is a view, not a field. A comm record is held
decoded (log 10). The last four fields are the local variables of R170 and R174 (log 11). -/
structure Brg where
  /-- R50 -/
  en : Byte
  /-- R51 -/
  speed : Byte
  /-- R52 -/
  spud : Byte
  /-- R53 -/
  ppd : Byte
  /-- R54 -/
  slew : Byte
  /-- R55 -/
  tp0 : Byte
  /-- R55 -/
  tp1 : Byte
  /-- R56 -/
  halt : Bool
  /-- R56 -/
  epof : Bool
  /-- R57 -/
  curcmd : Half
  /-- R58 -/
  cbuf : List Instr
  /-- R59 -/
  wbuf : List Byte
  /-- R60 -/
  rbuf : List Byte
  /-- R61 -/
  resq : List Byte
  /-- R62 -/
  fault : BrgFault
  /-- R63 -/
  exec : Exec
  /-- R63 -/
  cur : Option Instr
  /-- R63 -/
  k : Nat
  /-- R63 -/
  m : Nat
  /-- R64 -/
  pulse : Pulse
  /-- where the command in execution stands (R170) -/
  stage : Stage
  /-- the byte being sent (R174, R175) -/
  x : Byte
  /-- the echo being assembled (R174) -/
  e : Byte
  /-- the OR of the result bits so far (R170, R171) -/
  res : Byte
  deriving DecidableEq, Repr, Inhabited

/-- The bridge after a power-on whose five draws start at `d` (R39, R70, R71). -/
def Brg.powerOn (c : Config) (d : Nat) : Brg :=
  { en := 0x00#8, speed := c.speeds.regular,
    spud := Config.freeByte d, ppd := Config.freeByte (d + 1), slew := Config.freeByte (d + 2),
    tp0 := Config.freeByte (d + 3), tp1 := Config.freeByte (d + 4),
    halt := false, epof := true, curcmd := 0x0000#16,
    cbuf := [], wbuf := [], rbuf := [], resq := [], fault := .none,
    exec := .idle, cur := none, k := 0, m := 0, pulse := .off,
    stage := .body, x := 0#8, e := 0#8, res := 0#8 }

/-! ### The machine -/

/-- The whole state: the configuration, which no step changes, the two agents, the clock, the pins, the
WIRE, and the model's own fields:
`agenda`, the moves the environment has lined up (log 1); `draws`, the counter of free values (log
3); `lastIn`, the answer of the last bulk read made by driving the Transport directly (log 20);
`trace`, the observed Transport and wire events, newest first (log 21). -/
structure State where
  /-- the parameters of 00_scope.md R10 -/
  cfg : Config
  seq : Seq
  brg : Brg
  /-- `CLOCK.now` (R38) -/
  now : Nat
  /-- R39 -/
  vppIn : Bool
  /-- R39 -/
  pmodIn : Bool
  wire : Wire
  agenda : List Move
  draws : Nat
  lastIn : List Byte
  trace : List TraceEvent
  deriving DecidableEq, Repr

/-- Why the machine stops with a fault. -/
inductive Fault where
  /-- The bridge is desynchronised and is asked for anything but a device reset (R62, U1, U24). Raised
  by every answer and every step of the bridge while `BRG.fault` is `DESYNC`. Safe: nothing is
  claimed of a run that has faulted. -/
  | desync
  deriving DecidableEq, Repr, Inhabited

/-- Why a step has no meaning (R15: "refused"). Every one is safe: it only makes claims
unprovable. -/
inductive Refusal where
  /-- An instruction whose meaning has not been written. Raised by exec's refused arms only. -/
  | notModelled (mnemonic : String)
  /-- A reserved Command Record reached the bridge (R122, U2). -/
  | reservedEncoding
  /-- A comm record with `IM` = 0 (R179, U3). -/
  | notImmediate
  /-- A comm record with `AC` = 1 (R182, U4). -/
  | afterCompletion
  /-- A comm record with both `SPU` and `RA` (R181, U5). -/
  | pullUpWithReset
  /-- `COMM_SEARCH_ACCESS`, in every form (R176, U6). -/
  | searchAccess
  /-- A programming pulse with `BRG.PPD` = 0 (R178, U7). Raised by the body of `COMM_PULSE`. -/
  | zeroPulseDuration
  /-- A block command with too few bytes in `WBUF` or too little room in `RBUF` (R175, U8). -/
  | blockBuffers
  /-- `RBUF` holds `BUF_CAP` bytes and a bit or byte command would add one (R173, U8). -/
  | readBufferFull
  /-- A `DATA_OUT` write past `BUF_CAP` (R92, U8). -/
  | writeBufferFull
  /-- A bulk transfer of no bytes (R92, R93: "Requires 1 <= n"). -/
  | emptyTransfer
  /-- An operation presented while another runs (R34, U21). -/
  | operationWhileBusy
  /-- An operation other than `ACQUIRE` while the handle is `CLOSED` (R40, U21). -/
  | handleClosed
  /-- `ACQUIRE` while the handle is `OPEN` (43_sequencer_primitives.md R240). -/
  | handleOpen
  deriving DecidableEq, Repr, Inhabited

/-- What a step of the machine answers. -/
abbrev Out := Host.Outcome State Fault Refusal

/-- The machine of a configuration right after reset: the state after one `POR` with the sequencer at its
own reset (R70, "model start"). What is on a real bus is not known (70_reset_and_hazards.md R362):
the WIRE is the oracle with nothing lined up. -/
def State.start (c : Config) : State :=
  { cfg := c, seq := .reset c, brg := .powerOn c 0, now := 0, vppIn := false, pmodIn := false,
    wire := .oracle [] [], agenda := [], draws := 5, lastIn := [], trace := [] }

/-- The machine right after reset, with the reference configuration (00_scope.md R10, R18). -/
def State.reset : State := .start Config.reference

end Sys2Proof.Machine
end

