-- ==== Sys2Proof/Machine/Operands.lean ====
section
/-! DEFINITION. Operand forms and the arithmetic of operands: bits of bytes, duration codes
(43_sequencer_primitives.md R232, 10_state.md R52, R53), ROM identifiers (10_state.md R68,
00_scope.md R13), CRC8 and validity (45_search.md R297, R304), the direction proposal
(R294). -/

namespace Sys2Proof

/-- `v` with bit `i` set to `b`; bits past the width are dropped. -/
def setBit {w : Nat} (v : BitVec w) (i : Nat) (b : Bool) : BitVec w :=
  if b then v ||| (1#w <<< i) else v &&& ~~~(1#w <<< i)

/-! ### ROM identifiers -/

/-- `rom.byte[k]` (R13, R84). -/
def Rom.byte (r : Rom) (k : Nat) : Byte := r.extractLsb' (8 * k) 8

/-- `rom.bit[i]` (R13): bit `i % 8` of byte `i / 8`, which R84 makes bit `i` of the number. -/
def Rom.bit (r : Rom) (i : Nat) : Bool := r.getLsbD i

/-- An identifier from its bytes, `byte[0]` first (R13, R84). -/
def Rom.ofBytes : List Byte → Rom
  | [] => 0#64
  | b :: bs => b.setWidth 64 ||| (Rom.ofBytes bs <<< 8)

/-- The eight bytes, `byte[0]` first. -/
def Rom.bytes (r : Rom) : List Byte := (List.range 8).map r.byte

/-- One data bit into the CRC register (R304). -/
def crc8Bit (crc : Byte) (b : Bool) : Byte :=
  if (crc.getLsbD 0 ^^ b) then (crc >>> 1) ^^^ Config.crc8Reflected else crc >>> 1

/-- One data byte into the CRC register, LSB first (R304). -/
def crc8Byte (crc : Byte) (x : Byte) : Byte :=
  (List.range 8).foldl (fun c k => crc8Bit c (x.getLsbD k)) crc

/-- `crc8` (R304). -/
def crc8 (bs : List Byte) : Byte := bs.foldl crc8Byte 0x00#8

/-- `valid(rom)` (R297). -/
def Rom.valid (r : Rom) : Bool :=
  r.byte 0 != 0x00#8 && crc8 ((List.range 7).map r.byte) == r.byte 7

namespace Machine

/-! ### Durations -/

/-- The duration code of R232, `1 + (duration_ms >> 4)`. -/
def durationCode (ms : Nat) : Byte := BitVec.ofNat 8 (1 + (ms >>> Config.durShift))

/-- May a strong pull-up of this many milliseconds be asked for (R132, R232)? -/
def legalPulse (ms : Nat) : Bool := decide (ms ≤ Config.maxPulseMs)

/-- `dur(SPUD)` (R178, R52): infinite for the infinite code (reference 0), else 16 milliseconds for each
unit of the code. -/
def pullUpTime (c : Config) (code : Byte) : Remaining :=
  if code = c.spudInfinite then .infinite else .finite (Config.spudUnitUs * code.toNat)

/-- `dur(PPD)` in the reference reading of R53 (log 13). -/
def programTime (c : Config) (code : Byte) : Remaining := .finite (c.ppdUnitUs * code.toNat)

/-- What is left after `ms` milliseconds (R64). -/
def Remaining.drain (ms : Nat) : Remaining → Remaining
  | .finite us => .finite (us - 1000 * ms)
  | .infinite => .infinite

/-- A pulse after `ms` milliseconds (R64). -/
def Pulse.drain (ms : Nat) : Pulse → Pulse
  | .off => .off
  | .spu left => .spu (left.drain ms)
  | .prg left => .prg (left.drain ms)

/-- Has the pulse ended (R64)? -/
def Pulse.over : Pulse → Bool
  | .off => true
  | .spu (.finite us) => us == 0
  | .spu .infinite => false
  | .prg (.finite us) => us == 0
  | .prg .infinite => false

/-! ### The search -/

/-- The search command byte (R293). -/
def searchCommand : SearchMode → Byte
  | .normal => Config.cmdSearchNormal
  | .alarm => Config.cmdSearchAlarm

/-- `propose(i, SS)` (R294). The sentinel `NONE` compares below every position (R291). -/
def propose (i : Nat) (ss : SearchState) : Bool :=
  match ss.lastDiscrepancy with
  | none => false
  | some d => if i = d then true else if d < i then false else ss.currentRom.bit i

/-- The direction a triplet takes, `none` for an abort (R275). -/
def directionTaken (idBit compBit d : Bool) : Option Bool :=
  if idBit && compBit then none
  else if !idBit && !compBit then some d
  else some idBit

/-! ### Options -/

/-- The options of every comm record the sequencer itself builds (R184): immediate and nothing else. -/
def immediate : CommOpts := { im := true, spu := false, ra := false, ac := false }

end Machine

end Sys2Proof
end

