-- ==== Sys2Proof/Machine/Bus.lean ====
section
/-! DEFINITION. The WIRE (10_state.md R37): the oracle, and the reference simulated bus of
45_search.md R310. -/

namespace Sys2Proof.Machine

/-- A slave after a reset cycle (R310): whatever it was doing is dropped. -/
def Slave.reset (v : Slave) : Slave := { v with st := .cmd, cb := 0#8, ck := 0, i := 0, ph := 0 }

/-- A slave at model start: as after a reset cycle (70_reset_and_hazards.md R362, D46). -/
def Slave.start (rom : Rom) (alarm : Bool) : Slave :=
  { rom := rom, alarm := alarm, st := .cmd, cb := 0#8, ck := 0, i := 0, ph := 0 }

/-- The reference bus at model start, with these identifiers and alarm conditions on it (R362, R310). -/
def RefBus.start (devices : List (Rom × Bool)) (shorted : Bool) : RefBus :=
  { slaves := devices.map fun d => .start d.1 d.2, shorted := shorted }

/-- Does the slave pull the line low in a read slot (R310)? -/
def Slave.pulls (v : Slave) : Bool :=
  match v.st with
  | .search => (v.ph == 0 && !v.rom.bit v.i) || (v.ph == 1 && v.rom.bit v.i)
  | .cmd => false
  | .off => false

/-- A slave waiting for a command byte sees one more bit of it (R310). -/
def Slave.takeCommandBit (b : Bool) (v : Slave) : Slave :=
  let cb := setBit v.cb v.ck b
  let ck := v.ck + 1
  if ck = 8 then
    if cb = Config.cmdSearchNormal || (cb = Config.cmdSearchAlarm && v.alarm) then
      { v with cb := cb, ck := ck, st := .search }
    else { v with cb := cb, ck := ck, st := .off }
  else { v with cb := cb, ck := ck }

/-- A searching slave sees the master's bit of a slot (R310): two probes, then the direction. -/
def Slave.takeSearchBit (b : Bool) (v : Slave) : Slave :=
  if v.ph < 2 then { v with ph := v.ph + 1 }
  else if b != v.rom.bit v.i then { v with st := .off }
  else if v.i + 1 = 64 then { v with ph := 0, i := v.i + 1, st := .off }
  else { v with ph := 0, i := v.i + 1 }

/-- Every slave sees every slot (R310). -/
def Slave.advance (b : Bool) (v : Slave) : Slave :=
  match v.st with
  | .cmd => v.takeCommandBit b
  | .search => v.takeSearchBit b
  | .off => v

/-- `WireReset` on the reference bus (R310). -/
def RefBus.reset (bus : RefBus) : ResetAnswer × RefBus :=
  ({ presence := !bus.slaves.isEmpty, short := bus.shorted, alarm := false },
    { bus with slaves := bus.slaves.map Slave.reset })

/-- The level sampled in a slot (R310, R37): 0 when the master writes 0, and in a read slot the AND of
what the slaves drive; a shorted bus reads 0. -/
def RefBus.level (bus : RefBus) (b : Bool) : Bool := b && !bus.shorted && !bus.slaves.any Slave.pulls

/-- `WireSlot` on the reference bus (R310). -/
def RefBus.slot (bus : RefBus) (b : Bool) : Bool × RefBus :=
  (bus.level b, { bus with slaves := bus.slaves.map (Slave.advance b) })

/-- The machine at model start with a reference bus on its WIRE (R362). -/
def State.startOn (c : Config) (bus : RefBus) : State := { State.start c with wire := .reference bus }

/-- `s` with an observed event added (R344). -/
def State.log (ev : TraceEvent) (s : State) : State := { s with trace := ev :: s.trace }

/-- `WireReset(BRG.SPEED)` (R37). Past the answers lined up, the answer is free (U15). -/
def wireReset (s : State) : ResetAnswer × State :=
  let s := s.log (.wireReset s.brg.speed)
  match s.wire with
  | .oracle (a :: resets) levels => (a, { s with wire := .oracle resets levels })
  | .oracle [] _ => (Config.freeReset s.draws, { s with draws := s.draws + 1 })
  | .reference bus => (bus.reset.1, { s with wire := .reference bus.reset.2 })

/-- What a slot answers and does to the WIRE, before it is logged (R37). -/
def wireLevel (b : Bool) (s : State) : Bool × State :=
  match s.wire with
  | .reference bus => ((bus.slot b).1, { s with wire := .reference (bus.slot b).2 })
  | .oracle resets levels =>
    if b then
      match levels with
      | r :: levels => (r, { s with wire := .oracle resets levels })
      | [] => (Config.freeLevel s.draws, { s with draws := s.draws + 1 })
    else (false, s)

/-- `WireSlot(b)` (R37): a write-0 slot answers 0; a read slot answers the sampled level, free past
the answers lined up (U15). -/
def wireSlot (b : Bool) (s : State) : Bool × State :=
  ((wireLevel b s).1, (wireLevel b s).2.log (.slot b (wireLevel b s).1))

/-- `WirePulse(kind, code)` (R37): no answer, and no effect on the slaves (R310). -/
def wirePulse (kind : PulseKind) (code : Byte) (s : State) : State := s.log (.pulse kind code)

end Sys2Proof.Machine
end

