-- ==== Sys2Proof/Machine/Flags.lean ====
section
/-! DEFINITION. Flag computations: the enable flags (10_state.md R50), the status flags (R56), the
Status Record (R65), result bytes (R67, 41_comm_commands.md R172) and the short check's scans
(43_sequencer_primitives.md R226). -/

namespace Sys2Proof.Machine

/-- The mask when the condition holds. -/
def flagIf (b : Bool) (mask : Byte) : Byte := if b then mask else 0#8

/-- Is a bit of the mask set in the byte? -/
def testFlag (v mask : Byte) : Bool := v &&& mask != 0#8

/-! ### Enable flags -/

/-- `EN.SPUE` (R50). -/
def Brg.spue (c : Config) (b : Brg) : Bool := testFlag b.en c.flags.spue
/-- `EN.PRGE` (R50). -/
def Brg.prge (c : Config) (b : Brg) : Bool := testFlag b.en c.flags.prge
/-- `EN.SPCE` (R50). -/
def Brg.spce (c : Config) (b : Brg) : Bool := testFlag b.en c.flags.spce

/-- The enable byte with these three flags; bits 7:3 read 0 (R50). -/
def enableFlags (c : Config) (spue prge spce : Bool) : Byte :=
  flagIf spue c.flags.spue ||| flagIf prge c.flags.prge ||| flagIf spce c.flags.spce

/-! ### Status flags -/

/-- A strong pull-up is being delivered (R56). -/
def Pulse.isSpu : Pulse → Bool
  | .spu _ => true
  | .off => false
  | .prg _ => false

/-- A programming pulse is being delivered (R56). -/
def Pulse.isPrg : Pulse → Bool
  | .prg _ => true
  | .off => false
  | .spu _ => false

/-- A comm command is outstanding (70_reset_and_hazards.md R380): in execution, or waiting while
halted. -/
def Brg.outstanding (b : Brg) : Bool := b.exec == .busy || !b.cbuf.isEmpty

/-- `SF` (R56): a view computed at the moment of a status read; bit 6 reads 0. -/
def statusFlags (s : State) : Byte :=
  flagIf s.brg.pulse.isSpu s.cfg.flags.spua ||| flagIf s.brg.pulse.isPrg s.cfg.flags.prga
    ||| flagIf s.vppIn s.cfg.flags.v12p ||| flagIf s.pmodIn s.cfg.flags.pmod
    ||| flagIf s.brg.halt s.cfg.flags.halt ||| flagIf (!s.brg.outstanding) s.cfg.flags.idle
    ||| flagIf s.brg.epof s.cfg.flags.epof

/-- A buffer count in the Status Record, saturated at 255 (R65). -/
def bufferCount (n : Nat) : Byte := BitVec.ofNat 8 (min n 255)

/-- The byte at an offset of the Status Record (R65, R66), by `STATUS_LAYOUT`; an offset that no
field has reads 0. -/
def statusByte (s : State) (at_ : Nat) : Byte :=
  if at_ = s.cfg.layout.en then s.brg.en
  else if at_ = s.cfg.layout.speed then s.brg.speed
  else if at_ = s.cfg.layout.spud then s.brg.spud
  else if at_ = s.cfg.layout.pdur0 then s.brg.ppd
  else if at_ = s.cfg.layout.pdur1 then s.brg.tp0
  else if at_ = s.cfg.layout.pdur2 then s.brg.tp1
  else if at_ = s.cfg.layout.pdur3 then 0x00#8
  else if at_ = s.cfg.layout.slew then s.brg.slew
  else if at_ = s.cfg.layout.rsv0 then 0x00#8
  else if at_ = s.cfg.layout.rsv1 then 0x00#8
  else if at_ = s.cfg.layout.sf then statusFlags s
  else if at_ = s.cfg.layout.cmdLo then s.brg.curcmd.low
  else if at_ = s.cfg.layout.cmdHi then s.brg.curcmd.high
  else if at_ = s.cfg.layout.cbuf then bufferCount s.brg.cbuf.length
  else if at_ = s.cfg.layout.wbuf then bufferCount s.brg.wbuf.length
  else if at_ = s.cfg.layout.rbuf then bufferCount s.brg.rbuf.length
  else 0x00#8

/-- The Status Record (R65): the fixed bytes, then the result-register tail, oldest first. -/
def statusRecord (s : State) : List Byte :=
  (List.range Config.statusFixedLen).map (statusByte s) ++ s.brg.resq

/-- The status-flags byte of a record that was read (R222). -/
def recordFlags (c : Config) (st : List Byte) : Byte := st.getD c.layout.sf 0#8
/-- `idle(st)` (R222). -/
def recordIdle (c : Config) (st : List Byte) : Bool :=
  testFlag (recordFlags c st) c.flags.idle
/-- `epof(st)` (R222). -/
def recordEpof (c : Config) (st : List Byte) : Bool :=
  testFlag (recordFlags c st) c.flags.epof
/-- `vpp(st)` (R222). -/
def recordVpp (c : Config) (st : List Byte) : Bool :=
  testFlag (recordFlags c st) c.flags.v12p
/-- `tail(st)` (R222). -/
def recordTail (st : List Byte) : List Byte := st.drop Config.statusFixedLen

/-! ### Result bytes -/

/-- The result bits of a reset cycle (R172). -/
def resetResult (a : ResetAnswer) : Byte :=
  flagIf a.short Config.rrSH ||| flagIf (!a.presence) Config.rrNRS ||| flagIf a.alarm Config.rrAPP

/-- A result byte of the four bits that no command of the bridge produces (60_exceptions.md R330). -/
def injectedResult (cmp crc rdp eos : Bool) : Byte :=
  flagIf cmp Config.rrCMP ||| flagIf crc Config.rrCRC ||| flagIf rdp Config.rrRDP
    ||| flagIf eos Config.rrEOS

/-- Does a result byte other than the sentinel have this bit (R67, R226)? -/
def resultHas (mask b : Byte) : Bool := b != Config.deviceDetect && testFlag b mask

/-- First scan of the short check (R226): is there a short in the tail? -/
def tailShort (t : List Byte) : Bool := t.any (resultHas Config.rrSH)

/-- Second scan of the short check (R226): is there a no-response in the tail? -/
def tailNoResponse (t : List Byte) : Bool := t.any (resultHas Config.rrNRS)

end Sys2Proof.Machine
end

