-- ==== Sys2Proof/Machine/Ops.lean ====
section
/-! DEFINITION. The named operations over the bridge's buffers and registers (20_memory.md R91 to R93,
41_comm_commands.md R170), resets (40_control_commands.md R151), and entry to recovery with its
return (60_exceptions.md R334, R335). -/

namespace Sys2Proof.Machine

/-- Go on from a next state; a fault or a refusal stays. -/
def andThen (o : Out) (k : State → Out) : Out :=
  match o with
  | .next s => k s
  | .fault f => .fault f
  | .refused r => .refused r

/-! ### The hazard rule (R62, R380) -/

/-- Break the hazard rule: `BRG.fault <- DESYNC` (R62, R380). The step itself answers a next state; the
run is a fault from the bridge's next answer on (log 8). -/
def setDesync (s : State) : State := { s with brg := { s.brg with fault := .desync } }

/-- While `DESYNC` every answer of the bridge is unspecified and the run has faulted (R62, R91). -/
def ifSound (s : State) (k : Out) : Out :=
  match s.brg.fault with
  | .desync => .fault .desync
  | .none => k

/-! ### Life of a comm command (R170) -/

/-- `Start(c)` (R170). -/
def startCommand (c : Instr) (s : State) : State :=
  { s with brg := { s.brg with
      exec := .busy, cur := some c, curcmd := c.value s.cfg, k := 0, m := 0,
      stage := .body, x := 0#8, e := 0#8, res := 0#8 } }

/-- `Complete(r)` (R170, R171): one result byte, and the engine is idle with idle values (log 11). -/
def completeCommand (r : Byte) (s : State) : State :=
  { s with brg := { s.brg with
      resq := s.brg.resq ++ [r], exec := .idle, cur := none, k := 0, m := 0,
      stage := .body, x := 0#8, e := 0#8, res := 0#8 } }

/-- The acceptance of a comm record up to the command's own refusals (R170): hazard first, then the
refusals of the option bits (R333), then the halt test. -/
def acceptComm (o : CommOpts) (c : Instr) (s : State) : Out :=
  ifSound s <|
    if s.brg.outstanding then .next (setDesync s)
    else if !o.im then .refused .notImmediate
    else if o.ac then .refused .afterCompletion
    else if o.spu && o.ra then .refused .pullUpWithReset
    else if s.brg.halt then .next { s with brg := { s.brg with cbuf := s.brg.cbuf ++ [c] } }
    else .next (startCommand c s)

/-- A mode record (42_mode_commands.md R200): hazard, or its whole effect in this step. -/
def acceptMode (write : Brg → Brg) (s : State) : Out :=
  ifSound s <|
    if s.brg.outstanding then .next (setDesync s)
    else .next { s with brg := write s.brg }

/-- Does a flush break the hazard rule: while the engine is busy (R154, R380); and while a halted record
waits, which is legal by R154 and outstanding by R380 (D24, U1): the model admits both (DESIGN CHOICE,
log 9). -/
def flushBlocked (s : State) : Bool :=
  s.brg.exec == .busy || (!s.brg.cbuf.isEmpty && s.cfg.readings.waitingBlocksFlush)

/-- A flush record (40_control_commands.md R154 to R156): hazard, or its buffer is emptied. -/
def acceptFlush (empty : Brg → Brg) (s : State) : Out :=
  ifSound s <|
    if flushBlocked s then .next (setDesync s)
    else .next { s with brg := empty s.brg }

/-- Set the stage of the command in execution. -/
def toStage (g : Stage) (s : State) : State := { s with brg := { s.brg with stage := g } }

/-- After the body: the `RA` epilogue, then the `SPU` epilogue, then completion (R170). -/
def afterBody (o : CommOpts) (s : State) : State :=
  toStage (if o.ra then .resetAfter else if o.spu then .pullUp else .finish) s

/-- OR a result bit into the command's result (R170). -/
def addResult (r : Byte) (s : State) : State :=
  { s with brg := { s.brg with res := s.brg.res ||| r } }

/-- Append a byte to `RBUF`; a full buffer refuses the step (R173, U8). -/
def pushRead (e : Byte) (s : State) (k : State → Out) : Out :=
  if s.brg.rbuf.length < s.cfg.bufCap then
    k { s with brg := { s.brg with rbuf := s.brg.rbuf ++ [e] } }
  else .refused .readBufferFull

/-- One slot of the byte `BRG.x`, LSB first (R174): the sampled level becomes bit `BRG.k` of the echo. -/
def shiftSlot (s : State) : State :=
  let a := wireSlot (s.brg.x.getLsbD s.brg.k) s
  { a.2 with brg := { a.2.brg with e := setBit a.2.brg.e a.2.brg.k a.1, k := a.2.brg.k + 1 } }

/-- After the eighth slot: the echo goes to `RBUF` and the slot counter and the echo start anew (R174). -/
def endByte (s : State) (k : State → Out) : Out :=
  pushRead s.brg.e { s with brg := { s.brg with k := 0, e := 0#8 } } k

/-- Begin a strong pull-up (R178, R180). -/
def beginPullUp (s : State) : State :=
  let s' := wirePulse .spu s.brg.spud s
  toStage .pulsing { s' with brg := { s'.brg with pulse := .spu (pullUpTime s.cfg s.brg.spud) } }

/-- Begin a programming pulse (R178). -/
def beginProgram (s : State) : State :=
  let s' := wirePulse .prg s.brg.ppd s
  toStage .pulsing { s' with brg := { s'.brg with pulse := .prg (programTime s.cfg s.brg.ppd) } }

/-! ### Resets (R39, R70, R151) -/

/-- Power-on of the bridge (R39): the values of R70 with `EPOF` = 1; five draws. -/
def powerOnBridge (s : State) : State := { s with brg := .powerOn s.cfg s.draws, draws := s.draws + 5 }

/-- The effect of `CTL_RESET_DEVICE` (R151): the same with `EPOF` = 0. -/
def deviceReset (s : State) : State :=
  { s with brg := { Brg.powerOn s.cfg s.draws with epof := false }, draws := s.draws + 5 }

/-! ### Transport calls as they are seen (R36): each with the timeout the sequencer holds for it (R43) -/

/-- A control transfer. -/
def State.logControl (w : CmdWord) (s : State) : State :=
  s.log (.record s.cfg.requestType w s.seq.ctlTimeout)

/-- A bulk read of the Status Record. -/
def State.logStatus (s : State) : State := s.log (.status s.cfg.epStatus s.seq.bulkTimeout)

/-- A bulk write of data. -/
def State.logOut (bytes : List Byte) (s : State) : State :=
  s.log (.dataOut s.cfg.epDataOut bytes s.seq.bulkTimeout)

/-- A bulk read of data. -/
def State.logIn (bytes : List Byte) (s : State) : State :=
  s.log (.dataIn s.cfg.epDataIn bytes s.seq.bulkTimeout)

/-! ### Bulk transfers (R91 to R93) -/

/-- `MemRead(STATUS, *)` (R91): a snapshot of the record, and the tail is drained. -/
def statusTransfer (s : State) (k : List Byte → State → Out) : Out :=
  ifSound s <|
    k (statusRecord s) ({ s with brg := { s.brg with resq := [] } }.logStatus)

/-- `MemWrite(DATA_OUT, n, v)` (R92). Where several conditions hold at once the spec gives no order: the
model tests the empty write, then the hazard, then the capacity (DESIGN CHOICE, log 32). A write of
more than `CHUNK_MAX` bytes that fits `BUF_CAP` is accepted (DESIGN CHOICE, log 33). -/
def outTransfer (bytes : List Byte) (s : State) : Out :=
  ifSound s <|
    if bytes.isEmpty then .refused .emptyTransfer
    else if s.brg.outstanding then .next (setDesync (s.logOut bytes))
    else if s.brg.wbuf.length + bytes.length ≤ s.cfg.bufCap then
      .next ({ s with brg := { s.brg with wbuf := s.brg.wbuf ++ bytes } }.logOut bytes)
    else .refused .writeBufferFull

/-- `MemRead(DATA_IN, n)` (R93): the `n` oldest bytes, or what is there (log 17). -/
def inTransfer (n : Nat) (s : State) (k : List Byte → State → Out) : Out :=
  ifSound s <|
    if n = 0 then .refused .emptyTransfer
    else
      k (s.brg.rbuf.take n)
        ({ s with brg := { s.brg with rbuf := s.brg.rbuf.drop n } }.logIn
          (s.brg.rbuf.take n))

/-! ### The sequencer's frame (R220) -/

/-- Replace what is left of the micro-sequence. -/
def setPhase (p : List Micro) (s : State) : State := { s with seq := { s.seq with phase := p } }

/-- Put micro-steps before what is left. -/
def pushPhase (p : List Micro) (s : State) : State := setPhase (p ++ s.seq.phase) s

/-- End the operation with an answer (R220): not busy, no operation, idle values (log 15). -/
def endOperation (a : Answer) (s : State) : State :=
  { s with seq := { s.seq with
      busy := false, op := none, phase := [], n := 0, i := 0, lastZero := none, workRom := 0#64,
      bytes := [], healthy := false, idBit := false, compBit := false, taken := none,
      flag := false, porSeen := false, found := [], answer := some a } }

/-- Answer a result (R220). -/
def answerOk (r : Result) (s : State) : State := endOperation (.ok r) s

/-- Surface an error: the return from recovery (R335) and the answer of an operation that raised with
no handler. The context is the operation and the last status flags (R220, R320). -/
def answerError (e : ErrorKind) (s : State) : State :=
  match s.seq.op with
  | some o => endOperation (.error e o s.seq.lastSf) s
  | none => s

/-! ### Micro-sequences of the procedures (43_sequencer_primitives.md) -/

/-- `Ctl(cat, value, index)` for a symbolic record (R125). -/
def send (c : Config) (i : Instr) : Micro := .ctl (encode c i)

/-- `PollIdle` (R223). -/
def pollIdle : List Micro := [.pollStart, .pollRead]

/-- `CommRaw` (R224). -/
def commRaw (c : Config) (i : Instr) : List Micro := send c i :: pollIdle

/-- `try p catch e: InitSequence, raise e` (R225, R334). -/
def recovering (p : List Micro) : List Micro := .tryBegin :: p ++ [.endRecover]

/-- `CommOp(value, index, out, n_in)` (R225) of the record `w`. -/
def commOpWord (w : CmdWord) (out : List Byte) (nIn : Nat) : List Micro :=
  recovering ((if out.isEmpty then [] else [.writeOut out]) ++ .ctl w :: pollIdle
    ++ (if nIn = 0 then [] else [.readIn nIn]))

/-- `CommOp` of a symbolic record. -/
def commOp (c : Config) (i : Instr) (out : List Byte) (nIn : Nat) : List Micro :=
  commOpWord (encode c i) out nIn

/-- `InitSequence` (R228): device reset, pull-up infinite, programming pulse short, programming pulse
enabled and strong pull-up disabled, short check. -/
def initSequence (c : Config) : List Micro :=
  [send c .ctlResetDevice]
    ++ commRaw c (.commSetDuration immediate .spu c.spudInfinite)
    ++ commRaw c (.commSetDuration immediate .prg c.initPpdCode)
    ++ [send c (.modePulseEn false true), .shortCheck]

/-! ### Entry to recovery and return (R334 to R336) -/

/-- Who takes a raised error: a `try` whose handler is the recovery attempt, a recovery attempt that
drops it (R229), or the HOST. The list is what is left of the micro-sequence after the handler's
frame. -/
inductive Handler where
  | recover (rest : List Micro)
  | drop (rest : List Micro)
  | host
  deriving DecidableEq, Repr

/-- The innermost `try` that has been entered: a `tryBegin` still ahead belongs to a `try` not entered
yet, whose closing frame is skipped. -/
def handlerOf : Nat → List Micro → Handler
  | _, [] => .host
  | skip, .tryBegin :: p => handlerOf (skip + 1) p
  | 0, .endRecover :: p => .recover p
  | skip + 1, .endRecover :: p => handlerOf skip p
  | _, .endDrop :: p => .drop p
  | skip, _ :: p => handlerOf skip p

/-- ENTRY TO RECOVERY (R334): one `InitSequence`, its own errors dropped (R229), the error kept and then
surfaced. Nothing else is saved: there is no return address and no saved status. -/
def enterRecovery (e : ErrorKind) (rest : List Micro) (s : State) : State :=
  setPhase (initSequence s.cfg ++ .endDrop :: .reraise e :: rest) s

/-- `raise e` (R14): the handler runs, or the error is answered. -/
def raiseError (e : ErrorKind) (s : State) : State :=
  match handlerOf 0 s.seq.phase with
  | .recover rest => enterRecovery e rest s
  | .drop rest => setPhase rest s
  | .host => answerError e s

end Sys2Proof.Machine
end

