-- ==== Sys2Proof/Machine/Comm.lean ====
section
/-! DEFINITION. The bus-communication commands (41_comm_commands.md). A command's meaning has two
parts: `execComm…`, its acceptance (R170), which `exec` calls when the record arrives; and
`bodyComm…`, one BRG step of its execution (R31). `brgStep` is the next step of the engine. -/

namespace Sys2Proof.Machine

/-! ### Acceptance (R170) -/

/-- `COMM_SET_DURATION` (R177). -/
def execCommSetDuration (o : CommOpts) (type : PulseKind) (code : Byte) (s : State) : Out :=
  acceptComm o (.commSetDuration o type code) s

/-- `COMM_BIT_IO` (R173). -/
def execCommBitIo (o : CommOpts) (d : Bool) (s : State) : Out := acceptComm o (.commBitIo o d) s

/-- `COMM_PULSE` (R178). -/
def execCommPulse (o : CommOpts) (type : PulseKind) (s : State) : Out :=
  acceptComm o (.commPulse o type) s

/-- `COMM_ONEWIRE_RESET` (R172). -/
def execCommOnewireReset (o : CommOpts) (se : Bool) (speed : Byte) (s : State) : Out :=
  acceptComm o (.commOnewireReset o se speed) s

/-- `COMM_BYTE_IO` (R174). -/
def execCommByteIo (o : CommOpts) (x : Byte) (s : State) : Out := acceptComm o (.commByteIo o x) s

/-- `COMM_BLOCK_IO` (R175). -/
def execCommBlockIo (o : CommOpts) (n : Half) (s : State) : Out :=
  acceptComm o (.commBlockIo o n) s

/-- `COMM_SEARCH_ACCESS` (R176): refused in every form; the hazard rule and the refusals of the option
bits come first (R333), the halt test after. -/
def execCommSearchAccess (o : CommOpts) (_index : Half) (s : State) : Out :=
  ifSound s <|
    if s.brg.outstanding then .next (setDesync s)
    else if !o.im then .refused .notImmediate
    else if o.ac then .refused .afterCompletion
    else if o.spu && o.ra then .refused .pullUpWithReset
    else .refused .searchAccess

/-! ### Bodies: one BRG step each time -/

/-- `COMM_SET_DURATION` (R177): one mode register, no bus cycle. -/
def bodyCommSetDuration (o : CommOpts) (type : PulseKind) (code : Byte) (s : State) : Out :=
  .next <| afterBody o <|
    match type with
    | .spu => { s with brg := { s.brg with spud := code } }
    | .prg => { s with brg := { s.brg with ppd := code } }

/-- `COMM_BIT_IO` (R173): one slot, whose level goes to bit 0 of a byte of `RBUF` (R86). -/
def bodyCommBitIo (o : CommOpts) (d : Bool) (s : State) : Out :=
  let a := wireSlot d s
  pushRead (setBit 0#8 0 a.1) a.2 fun t => .next (afterBody o t)

/-- `COMM_PULSE` (R178): the enable bit, then for a programming pulse the 12 V supply and the duration
code, gate the pulse. -/
def bodyCommPulse (o : CommOpts) (type : PulseKind) (s : State) : Out :=
  match type with
  | .spu => if s.brg.spue s.cfg then .next (beginPullUp s) else .next (afterBody o s)
  | .prg =>
    if !s.brg.prge s.cfg then .next (afterBody o s)
    else if !s.vppIn then .next (afterBody o (addResult Config.rrVPP s))
    else if s.brg.ppd = 0#8 then .refused .zeroPulseDuration
    else .next (beginProgram s)

/-- `COMM_ONEWIRE_RESET` (R172): with `SE` the speed register first, then one reset cycle. -/
def bodyCommOnewireReset (o : CommOpts) (se : Bool) (speed : Byte) (s : State) : Out :=
  let t : State := if se then { s with brg := { s.brg with speed := speed } } else s
  let a := wireReset t
  .next (afterBody o (addResult (resetResult a.1) a.2))

/-- `COMM_BYTE_IO` (R174): one of the eight slots, LSB first; the echo goes to `RBUF` after the
eighth. -/
def bodyCommByteIo (o : CommOpts) (x : Byte) (s : State) : Out :=
  let t := shiftSlot { s with brg := { s.brg with x := x } }
  if t.brg.k = 8 then endByte t fun u => .next (afterBody o u) else .next t

/-- The byte a block command sends next: at its first slot the oldest byte leaves `WBUF` (R175). -/
def loadByte (s : State) (k : State → Out) : Out :=
  if s.brg.k = 0 then
    match s.brg.wbuf with
    | x :: rest => k { s with brg := { s.brg with x := x, wbuf := rest } }
    | [] => .refused .blockBuffers
  else k s

/-- `COMM_BLOCK_IO` (R175): the buffers are looked at before the first slot; then each byte is taken
from `WBUF`, sent in eight slots, and its echo put in `RBUF`. -/
def bodyCommBlockIo (o : CommOpts) (n : Half) (s : State) : Out :=
  if s.brg.k = 0 ∧ s.brg.m = 0 ∧
      ¬(n.toNat ≤ s.brg.wbuf.length ∧ s.brg.rbuf.length + n.toNat ≤ s.cfg.bufCap) then
    .refused .blockBuffers
  else
    loadByte s fun t =>
      let u := shiftSlot t
      if u.brg.k = 8 then
        endByte u fun v =>
          let w : State := { v with brg := { v.brg with m := v.brg.m + 1 } }
          if n.toNat ≤ w.brg.m then .next (afterBody o w) else .next w
      else .next u

/-- One step of the body of the command in execution. A control or mode record, or a search access,
is never in execution: there is no step. -/
def bodyStep (c : Instr) (s : State) : Out :=
  match c with
  | .commSetDuration o type code => bodyCommSetDuration o type code s
  | .commBitIo o d => bodyCommBitIo o d s
  | .commPulse o type => bodyCommPulse o type s
  | .commOnewireReset o se speed => bodyCommOnewireReset o se speed s
  | .commByteIo o x => bodyCommByteIo o x s
  | .commBlockIo o n => bodyCommBlockIo o n s
  | .commSearchAccess _ _ => .next s
  | .ctlResetDevice | .ctlResumeExe | .ctlHaltExe => .next s
  | .ctlFlushComm | .ctlFlushRead | .ctlFlushWrite => .next s
  | .modePulseEn _ _ | .modeSpeedChangeEn _ | .modeBusSpeed _ | .modePullupDuration _ => .next s
  | .modeSlewRate _ | .modePulseDuration _ | .modeTiming0 _ | .modeTiming1 _ => .next s

/-- Does the record ask for the `SPU` epilogue (R180)? -/
def wantsPullUp : Instr → Bool
  | .commSetDuration o _ _ => o.spu
  | .commBitIo o _ => o.spu
  | .commPulse o _ => o.spu
  | .commOnewireReset o _ _ => o.spu
  | .commByteIo o _ => o.spu
  | .commBlockIo o _ => o.spu
  | .commSearchAccess o _ => o.spu
  | .ctlResetDevice | .ctlResumeExe | .ctlHaltExe => false
  | .ctlFlushComm | .ctlFlushRead | .ctlFlushWrite => false
  | .modePulseEn _ _ | .modeSpeedChangeEn _ | .modeBusSpeed _ | .modePullupDuration _ => false
  | .modeSlewRate _ | .modePulseDuration _ | .modeTiming0 _ | .modeTiming1 _ => false

/-- The `RA` epilogue (R181): one reset cycle, whose bits join the result. -/
def resetEpilogue (c : Instr) (s : State) : State :=
  let a := wireReset s
  toStage (if wantsPullUp c then .pullUp else .finish) (addResult (resetResult a.1) a.2)

/-- The `SPU` epilogue (R180): a pull-up when `EN.SPUE` is set, nothing otherwise. -/
def pullUpEpilogue (s : State) : State := if s.brg.spue s.cfg then beginPullUp s else toStage .finish s

/-- A running pulse (R64, R178): when it has ended the command completes; until then there is no
step. -/
def pulseStep (s : State) : State :=
  if s.brg.pulse.over then
    completeCommand s.brg.res { s with brg := { s.brg with pulse := .off } }
  else s

/-- The next step of the bridge engine (R31, R170): of the command in execution, or the start of a
waiting one when execution is not halted (R152, R153). Where no step is enabled nothing changes. -/
def brgStep (s : State) : Out :=
  ifSound s <|
    match s.brg.exec, s.brg.cur with
    | .idle, _ =>
      match s.brg.halt, s.brg.cbuf with
      | false, c :: rest => .next (startCommand c { s with brg := { s.brg with cbuf := rest } })
      | false, [] => .next s
      | true, _ => .next s
    | .busy, none => .next s
    | .busy, some c =>
      match s.brg.stage with
      | .body => bodyStep c s
      | .resetAfter => .next (resetEpilogue c s)
      | .pullUp => .next (pullUpEpilogue s)
      | .pulsing => .next (pulseStep s)
      | .finish => .next (completeCommand s.brg.res s)

end Sys2Proof.Machine
end

