-- ==== Sys2Proof/Machine/Control.lean ====
section
/-! DEFINITION. The control commands (40_control_commands.md): each takes its whole effect in the step
that accepts it, with no result byte, no data and `CURCMD` unchanged (R150). -/

namespace Sys2Proof.Machine

/-- `CTL_RESET_DEVICE` (R151). The only record with a meaning while `DESYNC`. -/
def execCtlResetDevice (s : State) : Out := .next (deviceReset s)

/-- `CTL_HALT_EXE` (R152): halt, end any pulse, and complete a `COMM_PULSE` whose pulse it ended. -/
def execCtlHaltExe (s : State) : Out :=
  ifSound s <|
    let h : State := { s with brg := { s.brg with halt := true } }
    match s.brg.pulse with
    | .off => .next h
    | .spu _ => .next (haltPulse h)
    | .prg _ => .next (haltPulse h)
where
  /-- The pulse ends; the command completes when it is a `COMM_PULSE` (R152), and any other command
  runs on to its own completion. -/
  haltPulse (h : State) : State :=
    let h : State := { h with brg := { h.brg with pulse := .off } }
    match h.brg.exec, h.brg.cur with
    | .busy, some (.commPulse _ _) => completeCommand 0x00#8 h
    | _, _ => h

/-- `CTL_RESUME_EXE` (R153): a waiting record starts in a later step of the bridge. -/
def execCtlResumeExe (s : State) : Out :=
  ifSound s <| .next { s with brg := { s.brg with halt := false } }

/-- `CTL_FLUSH_COMM` (R154). -/
def execCtlFlushComm (s : State) : Out := acceptFlush (fun b => { b with cbuf := [] }) s

/-- `CTL_FLUSH_READ` (R155). -/
def execCtlFlushRead (s : State) : Out := acceptFlush (fun b => { b with rbuf := [] }) s

/-- `CTL_FLUSH_WRITE` (R156). -/
def execCtlFlushWrite (s : State) : Out := acceptFlush (fun b => { b with wbuf := [] }) s

end Sys2Proof.Machine
end

