-- ==== Sys2Proof/Machine/Mode.lean ====
section
/-! DEFINITION. The mode-configuration commands (42_mode_commands.md): each writes one mode register in
the step that accepts it (R200). -/

namespace Sys2Proof.Machine

/-- `MODE_PULSE_EN` (R201): `EN[1:0]`, with `EN.SPCE` unchanged. -/
def execModePulseEn (spue prge : Bool) (s : State) : Out :=
  acceptMode (fun b => { b with en := enableFlags s.cfg spue prge (b.spce s.cfg) }) s

/-- `MODE_SPEED_CHANGE_EN` (R202): `EN.SPCE`, with `EN[1:0]` unchanged. -/
def execModeSpeedChangeEn (spce : Bool) (s : State) : Out :=
  acceptMode (fun b => { b with en := enableFlags s.cfg (b.spue s.cfg) (b.prge s.cfg) spce }) s

/-- `MODE_BUS_SPEED` (R203). -/
def execModeBusSpeed (speed : Byte) (s : State) : Out :=
  acceptMode (fun b => { b with speed := speed }) s

/-- `MODE_PULLUP_DURATION` (R204). -/
def execModePullupDuration (code : Byte) (s : State) : Out :=
  acceptMode (fun b => { b with spud := code }) s

/-- `MODE_SLEW_RATE` (R205). -/
def execModeSlewRate (code : Byte) (s : State) : Out :=
  acceptMode (fun b => { b with slew := code }) s

/-- `MODE_PULSE_DURATION` (R206). -/
def execModePulseDuration (code : Byte) (s : State) : Out :=
  acceptMode (fun b => { b with ppd := code }) s

/-- `MODE_TIMING0` (R207). -/
def execModeTiming0 (code : Byte) (s : State) : Out :=
  acceptMode (fun b => { b with tp0 := code }) s

/-- `MODE_TIMING1` (R208). -/
def execModeTiming1 (code : Byte) (s : State) : Out :=
  acceptMode (fun b => { b with tp1 := code }) s

end Sys2Proof.Machine
end

