-- ==== Sys2Proof/Machine/Dispatch.lean ====
section
/-! DEFINITION. What a decoded Command Record does when it reaches the bridge engine: one arm per
constructor, each one call of that command's meaning. -/

namespace Sys2Proof.Machine

/-- The bridge engine accepts a decoded record (10_state.md R31, 41_comm_commands.md R170). -/
def exec (i : Instr) (s : State) : Host.Outcome State Fault Refusal :=
  match i with
  | .ctlResetDevice => Sys2Proof.Machine.execCtlResetDevice s
  | .ctlResumeExe => Sys2Proof.Machine.execCtlResumeExe s
  | .ctlHaltExe => Sys2Proof.Machine.execCtlHaltExe s
  | .ctlFlushComm => Sys2Proof.Machine.execCtlFlushComm s
  | .ctlFlushRead => Sys2Proof.Machine.execCtlFlushRead s
  | .ctlFlushWrite => Sys2Proof.Machine.execCtlFlushWrite s
  | .commSetDuration o type code => Sys2Proof.Machine.execCommSetDuration o type code s
  | .commBitIo o d => Sys2Proof.Machine.execCommBitIo o d s
  | .commPulse o type => Sys2Proof.Machine.execCommPulse o type s
  | .commOnewireReset o se speed => Sys2Proof.Machine.execCommOnewireReset o se speed s
  | .commByteIo o x => Sys2Proof.Machine.execCommByteIo o x s
  | .commBlockIo o n => Sys2Proof.Machine.execCommBlockIo o n s
  | .commSearchAccess o index => Sys2Proof.Machine.execCommSearchAccess o index s
  | .modePulseEn spue prge => Sys2Proof.Machine.execModePulseEn spue prge s
  | .modeSpeedChangeEn spce => Sys2Proof.Machine.execModeSpeedChangeEn spce s
  | .modeBusSpeed speed => Sys2Proof.Machine.execModeBusSpeed speed s
  | .modePullupDuration code => Sys2Proof.Machine.execModePullupDuration code s
  | .modeSlewRate code => Sys2Proof.Machine.execModeSlewRate code s
  | .modePulseDuration code => Sys2Proof.Machine.execModePulseDuration code s
  | .modeTiming0 code => Sys2Proof.Machine.execModeTiming0 code s
  | .modeTiming1 code => Sys2Proof.Machine.execModeTiming1 code s

end Sys2Proof.Machine
end

