-- ==== Sys2Proof/Machine/Operations.lean ====
section
/-! DEFINITION. The HOST operations as micro-sequences (43_sequencer_primitives.md, 44_busmaster_ops.md,
45_search.md) and the frame every operation runs in (R220). -/

namespace Sys2Proof.Machine

/-! ### Shared micro-sequences -/

/-- The body of `TOUCHBIT` (R262) up to its result. -/
def touchBit (c : Config) (b : Bool) : List Micro := commOp c (.commBitIo immediate b) [] 1

/-- The comm command of `WRBYTE` and `RDBYTE` (R266, R267). -/
def byteIo (c : Config) (x : Byte) : List Micro := commOp c (.commByteIo immediate x) [] 1

/-- One chunk of a block (R270). -/
def chunkIo (c : Config) (bytes : List Byte) : List Micro :=
  commOp c (.commBlockIo immediate (BitVec.ofNat 16 bytes.length)) bytes bytes.length

/-- The body of `RESET` (R260) up to its result: the reset command with the configured speed, the short
check with its own handler, then the short test and the compliance delay. -/
def busReset (c : Config) (speed : Byte) : List Micro :=
  commOp c (.commOnewireReset immediate true speed) [] 0
    ++ recovering [.shortCheck] ++ [.resetTail]

/-- The first or the last record of `STARTPULSE` (R233): it stands outside every `try` there, while R321 and
R334 run one `InitSequence` for an error anywhere in `STARTPULSE`. The model admits both (DESIGN
CHOICE, log 18). -/
def pulseMode (c : Config) (spue : Bool) : List Micro :=
  if c.readings.pulseModeRecovers then recovering [send c (.modePulseEn spue true)]
  else [send c (.modePulseEn spue true)]

/-- The body of `STARTPULSE` (R233); `pulseEnd` sends its last record. -/
def startPulse (c : Config) (ms : Nat) : List Micro :=
  pulseMode c true
    ++ commOp c (.commSetDuration immediate .spu (durationCode ms)) [] 0
    ++ recovering (send c (.commPulse immediate .spu) :: .delay ms :: pollIdle)
    ++ [.pulseEnd]

/-- The optional pulse after a write (R267, R272). -/
def optionalPulse (c : Config) : Option Nat → List Micro
  | none => []
  | some ms => startPulse c ms

/-- Two probes and the decoding of a triplet (R275); the third slot is pushed by `tripletComp`. -/
def tripletProbes (c : Config) (d : Bool) : List Micro :=
  touchBit c true ++ [.tripletId] ++ touchBit c true ++ [.tripletComp d]

/-! ### Operands as the HOST presents them (30_encoding.md R132) -/

/-- A bit is 0 or 1. -/
def legalBit (b : Nat) : Bool := decide (b ≤ 1)

/-- A byte is 0 to 255. -/
def legalByte (x : Nat) : Bool := decide (x ≤ 255)

/-- The bit of an operand in range. -/
def bitOf (b : Nat) : Bool := b != 0

/-- The byte of an operand in range. -/
def byteOf (x : Nat) : Byte := BitVec.ofNat 8 x

/-- The record a request of `CMD` encodes to (R244), when it encodes. -/
def requestedWord (c : Config) (r : CmdRequest) : CmdWord := (encodeRequest c r).getD 0#40

/-- What the HOST may configure at `ACQUIRE`, or the default (R43, R240). -/
def configured (value : Option Nat) (default_ : Nat) : Nat := value.getD default_

/-- The micro-sequence of an operation whose operands are in range (R130). `CMD` answers the bytes read,
as R244 says, although the table of R130 gives it the result unit (DESIGN CHOICE, log 34). `ACQUIRE`
leaves `SEQ.speed` as an earlier `SETSPEED` of the session before set it, while its `InitSequence`
brings `BRG.SPEED` to regular (R42, R70, R240), where R389 derives that the two are equal after
`ACQUIRE` (DESIGN CHOICE, log 38). -/
def program (c : Config) (op : HostOp) (speed : Byte) : List Micro :=
  match op with
  | .acquire pollMax ctl bulk =>
    [.openDevice, .claimInterface, .setAltSetting, .clearHalt c.epStatus, .clearHalt c.epDataOut,
      .clearHalt c.epDataIn,
      .configure (configured (pollMax.map Subtype.val) Config.pollMax)
        (configured ctl c.ctlTimeout) (configured bulk c.bulkTimeout)]
      ++ initSequence c ++ [.answer .unit]
  | .release => [.close, .answer .unit]
  | .recover => initSequence c ++ [.answer .pair]
  | .shortchk => [.shortCheck, .answer .pair]
  | .startpulse ms => startPulse c ms ++ [.answer .unit]
  | .setspeed v => [send c (.modeBusSpeed (byteOf v)), .setSpeed (byteOf v), .answer .unit]
  | .cmd r out nIn =>
    (if r.cat = .comm then commOpWord (requestedWord c r) (out.map byteOf) nIn
      else [.ctl (requestedWord c r)]) ++ [.answer .bytes]
  | .reset => busReset c speed ++ [.answer .present]
  | .touchbit b => touchBit c (bitOf b) ++ [.answer .bit]
  | .wrbit b => touchBit c (bitOf b) ++ [.answer .unit]
  | .rdbit => touchBit c true ++ [.answer .bit]
  | .rdbyte => byteIo c 0xFF#8 ++ [.answer .byte]
  | .wrbyte x pulse =>
    byteIo c (byteOf x) ++ [.checkByte (byteOf x)] ++ optionalPulse c pulse ++ [.answer .flag]
  | .rdblock n => [.block (List.replicate n 0xFF#8), .answer .bytes]
  | .wrblock bytes pulse =>
    [.block (bytes.map byteOf), .checkBlock (bytes.map byteOf)] ++ optionalPulse c pulse
      ++ [.answer .flag]
  | .triplet d => tripletProbes c (bitOf d) ++ [.answer .triplet]
  | .srchReset => [.srchReset, .answer .unit]
  | .srchNext mode => [.srchBegin (mode.getD .normal)]
  | .search mode => [.srchBegin (mode.getD .normal)]

/-- The operand ranges of R132, and for `CMD` the requests `Encode` accepts (R122, R125, R244; the bounds
of its two data operands are log 19). -/
def operandsOk (c : Config) : HostOp → Bool
  | .acquire _ _ _ => true
  | .release => true
  | .recover => true
  | .shortchk => true
  | .startpulse ms => legalPulse ms
  | .setspeed v => legalByte v && legalSpeed c (byteOf v)
  | .cmd r out _ =>
    (encodeRequest c r).isSome && decide (out.length ≤ c.chunkMax) && out.all legalByte
  | .reset => true
  | .touchbit b => legalBit b
  | .wrbit b => legalBit b
  | .rdbit => true
  | .rdbyte => true
  | .wrbyte x pulse => legalByte x && pulse.all legalPulse
  | .rdblock n => decide (n ≤ Config.maxBlock)
  | .wrblock bytes pulse =>
    decide (bytes.length ≤ Config.maxBlock) && bytes.all legalByte && pulse.all legalPulse
  | .triplet d => legalBit d
  | .srchReset => true
  | .srchNext mode => mode.isSome
  | .search mode => mode.isSome

/-- Is the operation `ACQUIRE`? -/
def HostOp.isAcquire (op : HostOp) : Bool := op.name == .acquire

/-- Start an operation (R220): busy, with its micro-sequence ahead. -/
def beginOperation (op : HostOp) (s : State) : State :=
  { s with seq := { s.seq with
      busy := true, op := some op.name, phase := program s.cfg op s.seq.speed, bytes := [], porSeen := false,
      found := [], answer := none } }

/-- Present an operation (R34, R220, R333): refused while busy, refused by the state of the handle,
`CallerError` for an operand out of range with nothing sent, otherwise it starts. The operation
named in a `CallerError` is the one presented (DESIGN CHOICE, log 35): by the order of R220 `SEQ.op`
would still be `NONE`. -/
def present (op : HostOp) (s : State) : Out :=
  if s.seq.busy then .refused .operationWhileBusy
  else
    match s.seq.handle, op.isAcquire with
    | .closed, false => .refused .handleClosed
    | .opened, true => .refused .handleOpen
    | .closed, true => accepted
    | .opened, false => accepted
where
  /-- The operand check, after the refusals (R333). -/
  accepted : Out :=
    if operandsOk s.cfg op then .next (beginOperation op s)
    else
      .next { s with seq :=
        { s.seq with answer := some (.error .callerError op.name s.seq.lastSf) } }

end Sys2Proof.Machine
end

