-- ==== Sys2Proof/Machine/Sequencer.lean ====
section
/-! DEFINITION. The sequencer: Transport calls and their fates (10_state.md R36), the status read and the
poll loop (43_sequencer_primitives.md R221 to R223), the short check (R226), and every other
micro-step. -/

namespace Sys2Proof.Machine

/-! ### Transport calls -/

/-- A Command Record arrives at the bridge (R36): it is decoded and, unless reserved (R122), its
meaning runs. A reserved record is refused in every state, before the fault of `DESYNC` and the
hazard rule are looked at: the spec gives no order (DESIGN CHOICE, log 23). -/
def deliver (w : CmdWord) (s : State) : Out :=
  match decode s.cfg w with
  | .ok i => exec i (s.logControl w)
  | .error _ => .refused .reservedEncoding

/-- A call without returned bytes (R36): on success the sequencer goes on with `k`; on a failure, with
or without its effect in the bridge, it raises `TransportError`. -/
def transport (fate : Fate) (effect : State → Out) (k : State → Out) (s : State) : Out :=
  match fate with
  | .ok => andThen (effect s) k
  | .lost => .next (raiseError .transportError s)
  | .delivered => andThen (effect s) fun t => .next (raiseError .transportError t)
  | .truncated _ => andThen (effect s) fun t => .next (raiseError .transportError t)

/-- A setup call (open, claim, alternate setting, clear halt): `ev` is seen when it is made. -/
def setupCall (fate : Fate) (ev : TraceEvent) (k : State → Out) (s : State) : Out :=
  transport fate (fun t => .next (t.log ev)) k s

/-- Is this the device-reset record (R45, R151)? -/
def isDeviceReset (c : Config) (w : CmdWord) : Bool :=
  match decode c w with
  | .ok .ctlResetDevice => true
  | _ => false

/-- `Ctl(cat, value, index)` made by the sequencer; a device reset empties `rtail` (R45, R223, R228,
R244). -/
def sendRecord (fate : Fate) (w : CmdWord) (k : State → Out) (s : State) : Out :=
  transport fate (deliver w)
    (fun t => k (if isDeviceReset s.cfg w then { t with seq := { t.seq with rtail := [] } } else t)) s

/-- The sequencer takes a status record (R221): a record under 16 bytes is a failed transfer. -/
def takeRecord (st : List Byte) (k : List Byte → State → Out) (s : State) : Out :=
  if st.length < Config.statusFixedLen then .next (raiseError .transportError s)
  else
    k st { s with seq := { s.seq with
      lastSf := recordFlags s.cfg st, rtail := s.seq.rtail ++ recordTail st } }

/-- `ReadStatus` (R221). -/
def readStatus (fate : Fate) (k : List Byte → State → Out) (s : State) : Out :=
  match fate with
  | .ok => statusTransfer s (takeRecord · k)
  | .truncated n => statusTransfer s fun st t => takeRecord (st.take n) k t
  | .lost => .next (raiseError .transportError s)
  | .delivered => statusTransfer s fun _ t => .next (raiseError .transportError t)

/-- `MemRead(DATA_IN, n)` made by the sequencer (R93, R225): fewer bytes than asked for is a failed
transfer. -/
def readIn (fate : Fate) (n : Nat) (s : State) : Out :=
  match fate with
  | .ok =>
    inTransfer n s fun got t =>
      if got.length < n then .next (raiseError .transportError t)
      else .next { t with seq := { t.seq with bytes := t.seq.bytes ++ got } }
  | .lost => .next (raiseError .transportError s)
  | .delivered => inTransfer n s fun _ t => .next (raiseError .transportError t)
  | .truncated _ => inTransfer n s fun _ t => .next (raiseError .transportError t)

/-! ### Poll loop and short check -/

/-- After a poll's read and its `EPOF` handling (R223, R333): idle returns, the bound raises `Timeout`,
otherwise delay and read again. -/
def pollDecide (idle : Bool) (s : State) : Out :=
  if idle then .next s
  else if s.seq.n = s.seq.pollMax then .next (raiseError .timeout s)
  else .next (pushPhase [.delay s.cfg.tPoll, .pollRead] s)

/-- One read of `PollIdle` (R223). -/
def pollOnce (st : List Byte) (s : State) : Out :=
  let t : State := { s with seq := { s.seq with n := s.seq.n + 1 } }
  if recordEpof s.cfg st then
    .next (pushPhase [.pollReset (recordIdle s.cfg st)]
      { t with seq := { t.seq with porSeen := true } })
  else pollDecide (recordIdle s.cfg st) t

/-- The scans of the short check (R226), over every byte delivered since the last one (R45). -/
def scanTail (st : List Byte) (s : State) : State :=
  let t := s.seq.rtail
  let short := tailShort t
  { s with seq := { s.seq with
      vpp := recordVpp s.cfg st, rtail := [], healthy := !short,
      present := !short && !tailNoResponse t } }

/-! ### The search (45_search.md) -/

/-- A pass ends without an identifier (R295, R302): `SRCH_NEXT` answers the reason, `SEARCH` the
identifiers so far with it (R301). -/
def endPass (reason : EndReason) (s : State) : State :=
  if s.seq.op = some .search then answerOk (.roms s.seq.found reason) s
  else answerOk (.srchEnd reason) s

/-- Step 7 of R295: commit the identifier to the Search State. -/
def commitRom (s : State) : State :=
  { s with seq := { s.seq with ss :=
    { currentRom := s.seq.workRom, lastDiscrepancy := s.seq.lastZero,
      lastDeviceFlag := s.seq.ss.lastDeviceFlag || s.seq.lastZero.isNone } } }

/-- A pass yields its identifier (R295): `SRCH_NEXT` answers it, `SEARCH` keeps it and begins the next
pass (R301). -/
def yieldRom (mode : SearchMode) (s : State) : State :=
  if s.seq.op = some .search then
    pushPhase [.srchBegin mode]
      { s with seq := { s.seq with found := s.seq.found ++ [s.seq.workRom] } }
  else answerOk (.rom s.seq.workRom) s

/-- Start of a pass (R295). -/
def beginPass (mode : SearchMode) (s : State) : State :=
  if s.seq.ss.lastDeviceFlag then endPass .exhausted s
  else pushPhase (busReset s.cfg s.seq.speed ++ [.srchPresent mode]) s

/-- After the bus reset of a pass (R295, steps 1 and 2). -/
def afterPresence (mode : SearchMode) (s : State) : State :=
  if s.seq.present then pushPhase (byteIo s.cfg (searchCommand mode) ++ [.srchFirst mode]) s
  else endPass .emptyBus s

/-- The pass's registers at its first position (R295). -/
def firstPosition (mode : SearchMode) (s : State) : State :=
  pushPhase [.srchPropose mode]
    { s with seq := { s.seq with
        lastZero := none, workRom := s.seq.ss.currentRom, i := 0, bytes := [] } }

/-- Propose a direction and probe (R295, steps 3 and 4). -/
def proposePosition (mode : SearchMode) (s : State) : State :=
  pushPhase (tripletProbes s.cfg (propose s.seq.i s.seq.ss) ++ [.srchBit mode]) s

/-- Steps 5 and 6 of R295, then the next position or the end of the pass. -/
def recordPosition (mode : SearchMode) (s : State) : State :=
  match s.seq.taken with
  | none => endPass (.aborted s.seq.i) s
  | some d =>
    let t : State := { s with seq := { s.seq with
      lastZero := if !s.seq.idBit && !s.seq.compBit && !d then some s.seq.i else s.seq.lastZero,
      workRom := setBit s.seq.workRom s.seq.i d } }
    if s.seq.i = 63 then pushPhase [.srchCommit mode] t
    else pushPhase [.srchPropose mode] { t with seq := { t.seq with i := s.seq.i + 1 } }

/-- The end of a complete pass (R295, R297). -/
def finishPass (mode : SearchMode) (s : State) : State :=
  if s.seq.workRom.valid then yieldRom mode (commitRom s)
  else endPass (.invalidRom s.seq.workRom) s

/-! ### Micro-steps -/

/-- The first byte read, if any. -/
def firstByte (s : State) : Byte := s.seq.bytes.headD 0#8

/-- The result an operation answers (R130). -/
def resultOf (kind : AnswerKind) (s : State) : Result :=
  match kind with
  | .unit => .unit
  | .pair => .pair s.seq.healthy s.seq.vpp
  | .present => .bool s.seq.present
  | .bit => .bit ((firstByte s).getLsbD 0)
  | .byte => .byte (firstByte s)
  | .bytes => .bytes s.seq.bytes
  | .flag => .bool s.seq.flag
  | .triplet =>
    match s.seq.taken with
    | none => .abort
    | some d => .triplet s.seq.idBit s.seq.compBit d

/-- After the second probe (R275): an abort makes no third slot; otherwise the direction is written. -/
def decodeTriplet (d : Bool) (s : State) : State :=
  let comp := (firstByte s).getLsbD 0
  let taken := directionTaken s.seq.idBit comp d
  let t : State := { s with seq := { s.seq with compBit := comp, taken := taken, bytes := [] } }
  match taken with
  | none => t
  | some b => pushPhase (touchBit s.cfg b ++ [.tripletDone]) t

/-- One block chunk, then the rest (R270). -/
def nextChunk (rest : List Byte) (s : State) : State :=
  if rest.isEmpty then s
  else
    pushPhase (chunkIo s.cfg (rest.take s.cfg.chunkMax) ++ [.block (rest.drop s.cfg.chunkMax)]) s

/-- The tail of `RESET` after its short check (R260): recovery and `ShortCircuit` when unhealthy, else the
compliance delay unless the configured speed is overdrive. -/
def resetTail (s : State) : State :=
  if !s.seq.healthy then enterRecovery .shortCircuit s.seq.phase s
  else if s.seq.speed = s.cfg.speeds.overdrive then s
  else pushPhase [.delay Config.tResetCompliance] s

/-- The last record of `STARTPULSE` (R233). After a `POR` that a poll of the operation has seen R332 keeps
`EN` 0 until the next `InitSequence`, so that the record is not sent; R233 sends it always. The model
admits both (DESIGN CHOICE, log 37). -/
def endPulse (s : State) : State :=
  if s.seq.porSeen && s.cfg.readings.porEndsPulse then s
  else pushPhase (pulseMode s.cfg false) s

/-- One micro-step, already taken off the front of `SEQ.phase`. -/
def microStep (m : Micro) (fate : Fate) (s : State) : Out :=
  match m with
  | .openDevice =>
    setupCall fate (.openDevice s.cfg.vid s.cfg.pid)
      (fun t => .next { t with seq := { t.seq with handle := .opened } }) s
  | .claimInterface => setupCall fate (.claimInterface s.cfg.iface) .next s
  | .setAltSetting => setupCall fate (.setAltSetting s.cfg.altset) .next s
  | .clearHalt endpoint => setupCall fate (.clearHalt endpoint) .next s
  | .configure pollMax ctl bulk =>
    .next { s with seq := { s.seq with
      pollMax := pollMax, ctlTimeout := ctl, bulkTimeout := bulk } }
  | .close => .next ({ s with seq := { s.seq with handle := .closed } }.log .close)
  | .ctl w => sendRecord fate w .next s
  | .writeOut bytes => transport fate (outTransfer bytes) .next s
  | .readIn n => readIn fate n s
  | .pollStart => .next { s with seq := { s.seq with n := 0 } }
  | .pollRead => readStatus fate pollOnce s
  | .pollReset idle => sendRecord fate (encode s.cfg .ctlResetDevice) (pollDecide idle) s
  | .delay ms => .next (pushPhase [.wait (s.now + ms)] (s.log (.delay ms)))
  | .wait due => if due ≤ s.now then .next s else .next (pushPhase [.wait due] s)
  | .shortCheck => readStatus fate (fun st t => .next (scanTail st t)) s
  | .tryBegin => .next s
  | .endRecover => .next s
  | .endDrop => .next s
  | .reraise e => .next (raiseError e s)
  | .setSpeed v => .next { s with seq := { s.seq with speed := v } }
  | .resetTail => .next (resetTail s)
  | .pulseEnd => .next (endPulse s)
  | .block rest => .next (nextChunk rest s)
  | .checkByte x =>
    .next { s with seq := { s.seq with flag := firstByte s != x, bytes := [] } }
  | .checkBlock bytes =>
    .next { s with seq := { s.seq with flag := s.seq.bytes == bytes, bytes := [] } }
  | .tripletId =>
    .next { s with seq := { s.seq with idBit := (firstByte s).getLsbD 0, bytes := [] } }
  | .tripletComp d => .next (decodeTriplet d s)
  | .tripletDone => .next { s with seq := { s.seq with bytes := [] } }
  | .srchReset => .next { s with seq := { s.seq with ss := .fresh } }
  | .srchBegin mode => .next (beginPass mode s)
  | .srchPresent mode => .next (afterPresence mode s)
  | .srchFirst mode => .next (firstPosition mode s)
  | .srchPropose mode => .next (proposePosition mode s)
  | .srchBit mode => .next (recordPosition mode s)
  | .srchCommit mode => .next (finishPass mode s)
  | .answer kind => .next (answerOk (resultOf kind s) s)

/-- The next step of the sequencer (R31, R33); with no operation in progress there is none. -/
def seqStep (fate : Fate) (s : State) : Out :=
  match s.seq.phase with
  | [] => .next s
  | m :: rest => microStep m fate (setPhase rest s)

end Sys2Proof.Machine
end

