-- ==== Sys2Proof/Machine/Moves.lean ====
section
/-! DEFINITION. What each move of an agent or of the environment does (10_state.md R31, R36 to R39). -/

namespace Sys2Proof.Machine

/-- Time passes (R38), and a finite pulse runs down (R64). -/
def passTime (ms : Nat) (s : State) : State :=
  { s with now := s.now + ms, brg := { s.brg with pulse := s.brg.pulse.drain ms } }

/-- `DEVICE_DETECT` (R39): the sentinel joins the result-register queue. -/
def detectDevice (s : State) : State :=
  { s with brg := { s.brg with resq := s.brg.resq ++ [Config.deviceDetect] } }

/-- A result byte of the four bits that no command produces joins the queue (60_exceptions.md R330,
U16). -/
def injectResult (cmp crc rdp eos : Bool) (s : State) : State :=
  { s with brg := { s.brg with resq := s.brg.resq ++ [injectedResult cmp crc rdp eos] } }

/-- The effect of one move (R31). -/
def applyMove (m : Move) (s : State) : Out :=
  match m with
  | .record w => deliver w s
  | .dataOut bytes => outTransfer bytes s
  | .dataIn n => inTransfer n s fun got t => .next { t with lastIn := got }
  | .status => statusTransfer s fun st t => .next { t with lastIn := st }
  | .host op => present op s
  | .seq fate => seqStep fate s
  | .brg => brgStep s
  | .clock ms => .next (passTime ms s)
  | .por => .next (powerOnBridge s)
  | .deviceDetect => .next (detectDevice s)
  | .inject cmp crc rdp eos => .next (injectResult cmp crc rdp eos s)
  | .vppIn b => .next { s with vppIn := b }
  | .pmodIn b => .next { s with pmodIn := b }
  | .rewire w => .next { s with wire := w }

/-- A run of given moves, stopping at the first fault or refusal. -/
def runMoves : List Move → State → Out
  | [], s => .next s
  | m :: ms, s => andThen (applyMove m s) (runMoves ms)

end Sys2Proof.Machine
end

