-- ==== Sys2Proof/Machine/Step.lean ====
section
/-! DEFINITION. One step of the machine, and how a Command Record is laid where the next step takes it
(log 1, log 2). -/

namespace Sys2Proof.Machine

/-- One step: the first move the environment has lined up, or, when none is, a move that nothing
constrains (10_state.md R31). -/
def step (s : State) : Host.Outcome State Fault Refusal :=
  match s.agenda with
  | m :: rest => applyMove m { s with agenda := rest }
  | [] => applyMove (Config.freeMove s.draws) { s with draws := s.draws + 1 }

/-- `s` with the record of an opcode-table word lined up as the next control transfer. -/
def State.withFetchWord (s : State) (nbits w : Nat) : State :=
  { s with agenda := .record (tableWord nbits w) :: s.agenda }

end Sys2Proof.Machine
end

