-- ==== Sys2Proof/Safety.lean ====
section
/-! DEFINITION. The terms claims are stated in: when the bridge accepts a command, runs of the bridge
engine, what a byte or a block asks of the WIRE, the opcode table, prompt runs of the sequencer, and
the invariants of the two agents. -/

namespace Sys2Proof

/-! ### Configurations -/

/-- No two masks share a bit. -/
def Apart {w : Nat} (masks : List (BitVec w)) : Prop := masks.Pairwise fun a b => a &&& b = 0#w

/-- The offsets of the sixteen named bytes (R65). -/
def StatusLayout.offsets (l : StatusLayout) : List Nat :=
  [l.en, l.speed, l.spud, l.pdur0, l.pdur1, l.pdur2, l.pdur3, l.slew, l.rsv0, l.rsv1, l.sf, l.cmdLo,
    l.cmdHi, l.cbuf, l.wbuf, l.rbuf]

/-- A configuration under which the encodings and the Status Record can be told apart: codes distinct,
option masks one bit each and disjoint, flags disjoint, every byte of the layout at
an offset of its own, a chunk that fits a buffer and the index, distinct endpoints (R36, R80, R121). -/
structure Config.Legal (c : Config) : Prop where
  cats : [c.catControl, c.catComm, c.catMode].Nodup
  selectors : [c.ctl.resetDevice, c.ctl.resumeExe, c.ctl.haltExe, c.ctl.flush].Nodup
  targets : [c.ctl.ftComm, c.ctl.ftRead, c.ctl.ftWrite].Nodup
  commCodes : [c.comm.setDuration, c.comm.bitIo, c.comm.pulse, c.comm.onewireReset,
    c.comm.byteIo, c.comm.blockIo, c.comm.searchAccess].Nodup
  /-- a code fixes `op` and `fx` only (R116) -/
  codesInMask : ∀ v ∈ [c.comm.setDuration, c.comm.bitIo, c.comm.pulse, c.comm.onewireReset,
    c.comm.byteIo, c.comm.blockIo, c.comm.searchAccess], v &&& c.comm.codeMask = v
  optionBits : ∀ m ∈ [c.comm.optIM, c.comm.optB3, c.comm.optRA, c.comm.optAC, c.comm.optSPU],
    ∃ k < 16, m = BitVec.twoPow 16 k
  options : Apart [c.comm.codeMask, c.comm.optIM, c.comm.optB3, c.comm.optRA, c.comm.optAC,
    c.comm.optSPU]
  modeIds : [c.mode.pulseEn, c.mode.speedChangeEn, c.mode.busSpeed, c.mode.pullupDuration,
    c.mode.slewRate, c.mode.pulseDuration, c.mode.timing0, c.mode.timing1].Nodup
  /-- two bits of `index[7:0]` (R114, R120) -/
  pulseEnBits : ∀ m ∈ [c.mode.valSPUE, c.mode.valPRGE], ∃ k < 8, m = BitVec.twoPow 16 k
  pulseEn : c.mode.valSPUE ≠ c.mode.valPRGE
  enables : Apart [c.flags.spue, c.flags.prge, c.flags.spce]
  enableBits : ∀ m ∈ [c.flags.spue, c.flags.prge, c.flags.spce], m ≠ 0#8
  statusMasks : Apart [c.flags.spua, c.flags.prga, c.flags.v12p, c.flags.pmod, c.flags.halt,
    c.flags.idle, c.flags.epof]
  statusBits : ∀ m ∈ [c.flags.spua, c.flags.prga, c.flags.v12p, c.flags.pmod, c.flags.halt,
    c.flags.idle, c.flags.epof], m ≠ 0#8
  offsets : c.layout.offsets.Nodup
  offsetsFit : ∀ k ∈ c.layout.offsets, k < Config.statusFixedLen
  chunk : 1 ≤ c.chunkMax ∧ c.chunkMax < 65536 ∧ c.chunkMax ≤ c.bufCap
  endpoints : [c.epStatus, c.epDataOut, c.epDataIn].Nodup

/-! ### The opcode table (30_encoding.md R115, R116, R120): the reference binding's words -/

/-- A row of the table: `W match` and `W mask`. -/
structure TableRow where
  pattern : CmdWord
  mask : CmdWord
  deriving DecidableEq, Repr

/-- Does the word match the row? -/
def TableRow.admits (r : TableRow) (w : CmdWord) : Bool := w &&& r.mask == r.pattern

/-- The row of an instruction, its two words as the spec's tables print them. -/
def Instr.row : Instr → TableRow
  | .ctlResetDevice => ⟨0x0000000000#40, 0xFFFFFF0000#40⟩
  | .ctlResumeExe => ⟨0x0000020000#40, 0xFFFFFF0000#40⟩
  | .ctlHaltExe => ⟨0x0000030000#40, 0xFFFFFF0000#40⟩
  | .ctlFlushComm => ⟨0x0000070000#40, 0xFFFFFFFFFF#40⟩
  | .ctlFlushRead => ⟨0x0000070001#40, 0xFFFFFFFFFF#40⟩
  | .ctlFlushWrite => ⟨0x0000070002#40, 0xFFFFFFFFFF#40⟩
  | .commSetDuration _ _ _ => ⟨0x0100120000#40, 0xFFFBF6FF00#40⟩
  | .commBitIo _ _ => ⟨0x0100200000#40, 0xFFEAF6FFFF#40⟩
  | .commPulse _ _ => ⟨0x0100300000#40, 0xFFFBF6FFFF#40⟩
  | .commOnewireReset _ _ _ => ⟨0x0100420000#40, 0xFFFBF6FF00#40⟩
  | .commByteIo _ _ => ⟨0x0100520000#40, 0xFFEAFEFF00#40⟩
  | .commBlockIo _ _ => ⟨0x0100740000#40, 0xFFEAFE0000#40⟩
  | .commSearchAccess _ _ => ⟨0x0100F40000#40, 0xFFEAFE0000#40⟩
  | .modePulseEn _ _ => ⟨0x0200000000#40, 0xFFFFFFFFFC#40⟩
  | .modeSpeedChangeEn _ => ⟨0x0200010000#40, 0xFFFFFFFFFE#40⟩
  | .modeBusSpeed _ => ⟨0x0200020000#40, 0xFFFFFFFF00#40⟩
  | .modePullupDuration _ => ⟨0x0200030000#40, 0xFFFFFFFF00#40⟩
  | .modeSlewRate _ => ⟨0x0200040000#40, 0xFFFFFFFF00#40⟩
  | .modePulseDuration _ => ⟨0x0200050000#40, 0xFFFFFFFF00#40⟩
  | .modeTiming0 _ => ⟨0x0200060000#40, 0xFFFFFFFF00#40⟩
  | .modeTiming1 _ => ⟨0x0200070000#40, 0xFFFFFFFF00#40⟩

/-- The control records whose index the bridge ignores (R112). -/
def Instr.ignoresIndex : Instr → Bool
  | .ctlResetDevice | .ctlResumeExe | .ctlHaltExe => true
  | .ctlFlushComm | .ctlFlushRead | .ctlFlushWrite => false
  | .commSetDuration _ _ _ | .commBitIo _ _ | .commPulse _ _ | .commOnewireReset _ _ _ => false
  | .commByteIo _ _ | .commBlockIo _ _ | .commSearchAccess _ _ => false
  | .modePulseEn _ _ | .modeSpeedChangeEn _ | .modeBusSpeed _ | .modePullupDuration _ => false
  | .modeSlewRate _ | .modePulseDuration _ | .modeTiming0 _ | .modeTiming1 _ => false

/-! ### Requests for records (R125, R130) -/

/-- The symbolic name of an instruction. -/
def Instr.cmdName : Instr → Machine.CmdName
  | .ctlResetDevice => .resetDevice
  | .ctlResumeExe => .resumeExe
  | .ctlHaltExe => .haltExe
  | .ctlFlushComm | .ctlFlushRead | .ctlFlushWrite => .flush
  | .commSetDuration _ _ _ => .setDuration
  | .commBitIo _ _ => .bitIo
  | .commPulse _ _ => .pulse
  | .commOnewireReset _ _ _ => .onewireReset
  | .commByteIo _ _ => .byteIo
  | .commBlockIo _ _ => .blockIo
  | .commSearchAccess _ _ => .searchAccess
  | .modePulseEn _ _ => .pulseEn
  | .modeSpeedChangeEn _ => .speedChangeEn
  | .modeBusSpeed _ => .busSpeed
  | .modePullupDuration _ => .pullupDuration
  | .modeSlewRate _ => .slewRate
  | .modePulseDuration _ => .pulseDuration
  | .modeTiming0 _ => .timing0
  | .modeTiming1 _ => .timing1

/-- No option at all. -/
def CommOpts.plain : CommOpts := { im := false, spu := false, ra := false, ac := false }

/-- The options of an instruction and its operand at bit 3 of the value. -/
def Instr.optsB3 : Instr → CommOpts × Bool
  | .ctlResetDevice | .ctlResumeExe | .ctlHaltExe => (.plain, false)
  | .ctlFlushComm | .ctlFlushRead | .ctlFlushWrite => (.plain, false)
  | .commSetDuration o type _ => (o, type.bit)
  | .commBitIo o d => (o, d)
  | .commPulse o type => (o, type.bit)
  | .commOnewireReset o se _ => (o, se)
  | .commByteIo o _ => (o, false)
  | .commBlockIo o _ => (o, false)
  | .commSearchAccess o _ => (o, false)
  | .modePulseEn _ _ | .modeSpeedChangeEn _ | .modeBusSpeed _ => (.plain, false)
  | .modePullupDuration _ | .modeSlewRate _ | .modePulseDuration _ => (.plain, false)
  | .modeTiming0 _ | .modeTiming1 _ => (.plain, false)

/-- The request whose record the instruction is. -/
def Instr.request (c : Config) (i : Instr) : Machine.CmdRequest :=
  { cat := i.category, name := i.cmdName, opts := i.optsB3.1, b3 := i.optsB3.2,
    operand := (i.index c).toNat }

/-! ### Which comm records the bridge executes (R123) -/

/-- Options with which a comm record is executed: `IM`, not `AC`, not `SPU` with `RA`. -/
def CommOpts.executable (o : CommOpts) : Bool := o.im && !o.ac && !(o.spu && o.ra)

/-- Where the engine stands after the body: the `RA` epilogue comes before the `SPU` epilogue (R170). -/
def CommOpts.stageAfterBody (o : CommOpts) : Machine.Stage :=
  if o.ra then .resetAfter else if o.spu then .pullUp else .finish

/-- A comm record that the bridge can hold in execution or waiting: not reserved, with executable
options, and not a search access. -/
def Instr.runnable (c : Config) : Instr → Bool
  | .ctlResetDevice | .ctlResumeExe | .ctlHaltExe => false
  | .ctlFlushComm | .ctlFlushRead | .ctlFlushWrite => false
  | .commSetDuration o type code => o.executable && Instr.wellFormed c (.commSetDuration o type code)
  | .commBitIo o _ => o.executable
  | .commPulse o type => o.executable && Instr.wellFormed c (.commPulse o type)
  | .commOnewireReset o se speed =>
    o.executable && Instr.wellFormed c (.commOnewireReset o se speed)
  | .commByteIo o _ => o.executable
  | .commBlockIo o n => o.executable && Instr.wellFormed c (.commBlockIo o n)
  | .commSearchAccess _ _ => false
  | .modePulseEn _ _ | .modeSpeedChangeEn _ | .modeBusSpeed _ | .modePullupDuration _ => false
  | .modeSlewRate _ | .modePulseDuration _ | .modeTiming0 _ | .modeTiming1 _ => false

namespace Machine

/-! ### The bridge ready for a command -/

/-- Not desynchronised, and no comm command outstanding (R62, R380). -/
def Brg.ready (b : Brg) : Bool := b.fault == .none && !b.outstanding

/-- Not desynchronised, and execution idle: what a flush needs (R154). -/
def Brg.flushable (b : Brg) : Bool := b.fault == .none && b.exec == .idle

/-- The bridge with nothing in execution and the engine's working registers at their idle values. -/
def Brg.atRest (b : Brg) : Brg :=
  { b with
    exec := .idle, cur := none, k := 0, m := 0, stage := .body, x := 0#8, e := 0#8, res := 0#8 }

/-! ### Runs of the bridge engine -/

/-- `n` steps of the bridge engine and nothing else. -/
def brgSteps : Nat → State → Out
  | 0, s => .next s
  | n + 1, s => andThen (brgStep s) (brgSteps n)

/-- A record is accepted, then the bridge engine makes `n` steps. -/
def runComm (i : Instr) (n : Nat) (s : State) : Out := andThen (exec i s) (brgSteps n)

/-! ### Bytes and blocks on the WIRE (R83, R174, R175) -/

/-- Slots that write these bits, in order, and the levels they answer. -/
def sendBits : List Bool → State → List Bool × State
  | [], s => ([], s)
  | b :: bs, s =>
    let a := wireSlot b s
    let r := sendBits bs a.2
    (a.1 :: r.1, r.2)

/-- The bits of a byte, least significant first. -/
def byteBits (x : Byte) : List Bool := (List.range 8).map x.getLsbD

/-- The byte with these bits, the first least significant. -/
def bitsByte : List Bool → Byte
  | [] => 0#8
  | b :: bs => setBit (bitsByte bs <<< 1) 0 b

/-- The eight slots of a byte, and the byte echoed. -/
def sendByte (x : Byte) (s : State) : Byte × State :=
  let r := sendBits (byteBits x) s
  (bitsByte r.1, r.2)

/-- The slots of a block, byte by byte, and the bytes echoed. -/
def sendBytes : List Byte → State → List Byte × State
  | [], s => ([], s)
  | x :: xs, s =>
    let a := sendByte x s
    let r := sendBytes xs a.2
    (a.1 :: r.1, r.2)

/-! ### Prompt runs of the sequencer -/

/-- A Transport call that succeeds. -/
def seqOk : Move := .seq .ok

/-- The moves of `CommRaw` when nothing fails and the bridge completes at once: the record, two steps of
the bridge, the start of the poll and one read. -/
def promptCommRaw : List Move := [seqOk, .brg, .brg, seqOk, seqOk]

/-- The moves of `InitSequence` when nothing fails and the bridge completes at once (R228). -/
def promptInit : List Move := seqOk :: promptCommRaw ++ promptCommRaw ++ [seqOk, seqOk]

/-- The moves of `n` polls that each find the bridge busy: the read, the delay, the passing of its time
and its end (R223). -/
def busyPolls (c : Config) : Nat → List Move
  | 0 => []
  | n + 1 => [seqOk, seqOk, .clock c.tPoll, seqOk] ++ busyPolls c n

/-- Does every `try` that is opened here close here, with `d` opened before (R225, R229)? -/
def balanced : Nat → List Micro → Bool
  | 0, [] => true
  | _ + 1, [] => false
  | d, .tryBegin :: p => balanced (d + 1) p
  | 0, .endRecover :: _ => false
  | d + 1, .endRecover :: p => balanced d p
  | _, .endDrop :: _ => false
  | d, _ :: p => balanced d p

/-- The bridge registers after the initialization sequence, the five draws of its device reset starting
at `d` (R70, column "after init"). -/
def Brg.initialized (c : Config) (d : Nat) : Brg :=
  { Brg.powerOn c d with
    en := enableFlags c false true false, spud := c.spudInfinite, ppd := c.initPpdCode, epof := false,
    curcmd := (Instr.commSetDuration immediate .prg c.initPpdCode).value c }

/-- Is the slave taking part in a search (R310)? -/
def Slave.searching (v : Slave) : Bool := v.st == .search

/-! ### What the sequencer sends (R184, R157) -/

/-- The records that the sequencer's own micro-sequences send. -/
def sequencerForm (c : Config) (w : CmdWord) : Bool :=
  match decode c w with
  | .ok (.ctlResetDevice) => true
  | .ok (.commOnewireReset o se _) => o == immediate && se
  | .ok (.commBitIo o _) => o == immediate
  | .ok (.commByteIo o _) => o == immediate
  | .ok (.commBlockIo o _) => o == immediate
  | .ok (.commSetDuration o _ _) => o == immediate
  | .ok (.commPulse o type) => o == immediate && type == .spu
  | .ok (.modePulseEn _ prge) => prge
  | .ok (.modeBusSpeed _) => true
  | .ok (.ctlResumeExe) | .ok (.ctlHaltExe) => false
  | .ok (.ctlFlushComm) | .ok (.ctlFlushRead) | .ok (.ctlFlushWrite) => false
  | .ok (.commSearchAccess _ _) => false
  | .ok (.modeSpeedChangeEn _) | .ok (.modePullupDuration _) | .ok (.modeSlewRate _) => false
  | .ok (.modePulseDuration _) | .ok (.modeTiming0 _) | .ok (.modeTiming1 _) => false
  | .error _ => false

/-! ### The invariant of the bridge engine -/

/-- A result byte is the sentinel, a mask of the four bits the bridge engine can produce, or one injected
with the four it cannot (R61, R330). -/
def legalResult (r : Byte) : Bool :=
  r == Config.deviceDetect || r &&& 0xF0#8 == 0#8 || r &&& 0x0F#8 == 0#8

/-- A block under way has the bytes it still needs and the room for their echoes (R175). -/
def Brg.blockSupplied (c : Config) (b : Brg) (n : Half) : Prop :=
  b.m < n.toNat ∧
    n.toNat ≤ b.wbuf.length + b.m + (if b.k = 0 then 0 else 1) ∧
    b.rbuf.length + n.toNat ≤ c.bufCap + b.m

/-- The invariant of the bridge engine. -/
structure Brg.Inv (c : Config) (b : Brg) : Prop where
  /-- the reserved enable bits read 0 (R50) -/
  enable : b.en &&& ~~~(c.flags.spue ||| c.flags.prge ||| c.flags.spce) = 0#8
  /-- R51 -/
  speed : legalSpeed c b.speed = true
  /-- R59 -/
  wbuf : b.wbuf.length ≤ c.bufCap
  /-- R60 -/
  rbuf : b.rbuf.length ≤ c.bufCap
  /-- R61 -/
  results : b.resq.all legalResult = true
  /-- R67, R330 -/
  result : b.res &&& 0xF0#8 = 0#8
  /-- at most one record waits (R58) -/
  oneWaiting : b.cbuf.length ≤ 1
  /-- it waits for an idle engine -/
  waitsIdle : b.cbuf ≠ [] → b.exec = .idle
  /-- it is one the bridge can execute -/
  waiting : b.cbuf.all (Instr.runnable c) = true
  /-- an idle engine holds idle values and delivers no pulse (R63, R64) -/
  idle : b.exec = .idle → b = b.atRest ∧ b.pulse = .off
  /-- a busy engine executes one command, which `CURCMD` echoes (R57, R63) -/
  busy : b.exec = .busy → ∃ i, b.cur = some i ∧ i.runnable c = true ∧ b.curcmd = i.value c
  /-- R63 -/
  slots : b.k < 8
  /-- a pulse is delivered only while its command is busy (R64) -/
  pulsing : b.pulse ≠ .off → b.exec = .busy ∧ b.stage = .pulsing
  /-- R175 -/
  block : ∀ o n, b.cur = some (.commBlockIo o n) → b.stage = .body → (b.k ≠ 0 ∨ b.m ≠ 0) →
    b.blockSupplied c n

/-! ### The invariant of the sequencer -/

/-- The micro-steps an operation can end with. -/
def Micro.final : Micro → Bool
  | .answer _ => true
  | .srchBegin _ | .srchPresent _ | .srchFirst _ | .srchPropose _ | .srchBit _ | .srchCommit _ =>
    true
  | .openDevice | .claimInterface | .setAltSetting | .clearHalt _ | .configure _ _ _ | .close => false
  | .ctl _ | .writeOut _ | .readIn _ | .pollStart | .pollRead | .pollReset _ => false
  | .delay _ | .wait _ | .shortCheck | .tryBegin | .endRecover | .endDrop | .reraise _ => false
  | .setSpeed _ | .resetTail | .pulseEnd | .block _ | .checkByte _ | .checkBlock _ => false
  | .tripletId | .tripletComp _ | .tripletDone | .srchReset => false

/-- The operands of a micro-step are in range: what is sent decodes, a bulk write carries 1 to
`CHUNK_MAX` bytes (R88), speeds are legal, the poll bound is at least 1 (R43). -/
def Micro.sound (c : Config) : Micro → Bool
  | .ctl w => (decode c w).isOk
  | .writeOut bytes => !bytes.isEmpty && decide (bytes.length ≤ c.chunkMax)
  | .setSpeed v => legalSpeed c v
  | .configure pollMax _ _ => decide (1 ≤ pollMax)
  | .answer _ => true
  | .srchBegin _ | .srchPresent _ | .srchFirst _ | .srchPropose _ | .srchBit _ | .srchCommit _ =>
    true
  | .openDevice | .claimInterface | .setAltSetting | .clearHalt _ | .close => true
  | .readIn _ | .pollStart | .pollRead | .pollReset _ => true
  | .delay _ | .wait _ | .shortCheck | .tryBegin | .endRecover | .endDrop | .reraise _ => true
  | .resetTail | .pulseEnd | .block _ | .checkByte _ | .checkBlock _ => true
  | .tripletId | .tripletComp _ | .tripletDone | .srchReset => true

/-- A micro-step of an operation other than `CMD` sends only the sequencer's own forms (R184). -/
def Micro.ownForm (c : Config) : Micro → Bool
  | .ctl w => sequencerForm c w
  | .writeOut _ | .setSpeed _ | .configure _ _ _ | .answer _ => true
  | .srchBegin _ | .srchPresent _ | .srchFirst _ | .srchPropose _ | .srchBit _ | .srchCommit _ =>
    true
  | .openDevice | .claimInterface | .setAltSetting | .clearHalt _ | .close => true
  | .readIn _ | .pollStart | .pollRead | .pollReset _ => true
  | .delay _ | .wait _ | .shortCheck | .tryBegin | .endRecover | .endDrop | .reraise _ => true
  | .resetTail | .pulseEnd | .block _ | .checkByte _ | .checkBlock _ => true
  | .tripletId | .tripletComp _ | .tripletDone | .srchReset => true

/-- Every identifier an answer carries as found is valid (R297). -/
def Answer.identifiersValid : Answer → Bool
  | .ok (.rom r) => r.valid
  | .ok (.roms found _) => found.all Rom.valid
  | .ok .unit | .ok (.pair _ _) | .ok (.bool _) | .ok (.bit _) | .ok (.byte _) => true
  | .ok (.bytes _) | .ok (.triplet _ _ _) | .ok .abort | .ok (.srchEnd _) => true
  | .error _ _ _ => true

/-- The working registers of the sequencer at their idle values. -/
def Seq.atRest (q : Seq) : Seq :=
  { q with
    busy := false, op := none, phase := [], n := 0, i := 0, lastZero := none, workRom := 0#64,
    bytes := [], healthy := false, idBit := false, compBit := false, taken := none, flag := false,
    porSeen := false, found := [] }

/-- The invariant of the sequencer. -/
structure Seq.Inv (c : Config) (q : Seq) : Prop where
  /-- busy exactly while an operation is in progress (R41, R48) -/
  busyOp : q.busy = q.op.isSome
  /-- busy exactly while micro-steps are left -/
  busyPhase : q.busy = !q.phase.isEmpty
  /-- an operation can always still answer -/
  ends : ∀ m, q.phase.getLast? = some m → m.final = true
  /-- R43, R88, R121 -/
  sound : q.phase.all (Micro.sound c) = true
  /-- R157, R184 -/
  forms : q.op ≠ some .cmd → q.phase.all (Micro.ownForm c) = true
  /-- while no operation runs the working registers hold idle values (R70) -/
  idle : q.busy = false → q = q.atRest
  /-- a closed handle admits only construction and the end of teardown (R40) -/
  closed : q.handle = .closed → q.busy = true → q.op = some .acquire ∨ q.op = some .release
  /-- only teardown closes (R241) -/
  closing : q.phase.contains .close = true → q.op = some .release
  /-- R42, R51 -/
  speed : legalSpeed c q.speed = true
  /-- R43 -/
  pollMax : 1 ≤ q.pollMax
  /-- R48 -/
  position : q.i ≤ 63
  /-- R48 -/
  lastZero : q.lastZero.all (· ≤ 63) = true
  /-- R47 -/
  discrepancy : q.ss.lastDiscrepancy.all (· ≤ 63) = true
  /-- R297 -/
  found : q.found.all Rom.valid = true
  /-- R328 -/
  answered : q.answer.all Answer.identifiersValid = true

/-- The invariant of the machine. -/
def State.Inv (s : State) : Prop := s.cfg.Legal ∧ s.brg.Inv s.cfg ∧ s.seq.Inv s.cfg

/-! ### What no result depends on (R71, R209) -/

/-- The state with the slew and timing registers, and what a direct status read last showed of them,
put out of sight. -/
def State.blind (s : State) : State :=
  { s with brg := { s.brg with slew := 0#8, tp0 := 0#8, tp1 := 0#8 }, lastIn := [] }

/-- The outcome with those put out of sight. -/
def blindOut (o : Out) : Out :=
  match o with
  | .next s => .next s.blind
  | .fault f => .fault f
  | .refused r => .refused r

end Machine

end Sys2Proof
end

