-- ==== Sys2Proof/Certificates/Slice0/Obligations.lean ====
section
/-! DEFINITION. The statements for the provers. -/

open Sys2Proof Sys2Proof.Machine

/-! ### Encoding (30_encoding.md) -/

/-- R125: under every configuration whose codes can be told apart, decoding the encoding of any
record that is not reserved gives the record back, every operand at every value. -/
def Obligations.DecodeEncode : Prop :=
  ∀ (c : Config) (i : Instr), c.Legal → i.wellFormed c = true → decode c (encode c i) = .ok i

/-- R125, R112, R121: what the decoder accepts is not reserved, and encoding it gives the word back, but
for the ignored index of a control record, which becomes 0; in the reference binding it matches the
opcode table's row of its instruction, and no word matches the rows of two different records. -/
def Obligations.EncodeDecode : Prop :=
  (∀ (c : Config) (w : CmdWord) (i : Instr), c.Legal → decode c w = .ok i →
    i.wellFormed c = true ∧
      encode c i = if i.ignoresIndex then cmdWord w.cat w.value 0#16 else w) ∧
  (∀ (w : CmdWord) (i : Instr), decode Config.reference w = .ok i → i.row.admits w = true) ∧
  ∀ (w : CmdWord) (i j : Instr), i.row.admits w = true → j.row.admits w = true → i.row = j.row

/-- R125, R122: `Encode` builds a record for a request exactly when the request names a command of its
category, its operand fits the index, and the record is not reserved; the record then decodes to an
instruction whose encoding it is; every record that is not reserved can be asked for; and `CMD`
answers `CallerError` to every other request, sending nothing (the two bounds on the request are the
model's, log 19, and so is the operation it names, log 35). -/
def Obligations.EncodeRequests : Prop :=
  (∀ (c : Config) (r : CmdRequest) (w : CmdWord), c.Legal → encodeRequest c r = some w →
    ∃ i, decode c w = .ok i ∧ i.wellFormed c = true ∧ encode c i = w) ∧
  (∀ (c : Config) (i : Instr), c.Legal → i.wellFormed c = true →
    encodeRequest c (i.request c) = some (encode c i)) ∧
  (∀ (c : Config) (r : CmdRequest), encodeRequest c r = none ↔
    r.name.category ≠ r.cat ∨ 65535 < r.operand ∨ ∃ e, decode c (r.word c) = .error e) ∧
  ∀ (s : State) (r : CmdRequest) (out : List Nat) (nIn : Nat), s.seq.handle = .opened →
    s.seq.busy = false → encodeRequest s.cfg r = none →
      applyMove (.host (.cmd r out nIn)) s = .next { s with seq :=
        { s.seq with answer := some (.error .callerError .cmd s.seq.lastSf) } }

/-- Words written out from the spec's encodings, one or more of each category. -/
def Obligations.SampleWords : Prop :=
  decode Config.reference 0x0000070001#40 = .ok .ctlFlushRead ∧
    decode Config.reference 0x01004B0002#40 =
      .ok (.commOnewireReset { im := true, spu := false, ra := false, ac := false } true 0x02#8) ∧
    decode Config.reference 0x0101530044#40 =
      .ok (.commByteIo { im := true, spu := false, ra := true, ac := false } 0x44#8) ∧
    decode Config.reference 0x0200000002#40 = .ok (.modePulseEn false true) ∧
    decode Config.reference 0x0200070004#40 = .ok (.modeTiming1 0x04#8)

/-! ### A step runs the record it is given -/

/-- R36, R122, log 1, log 2: when the next move is a record that decodes, the step is the meaning of the
instruction at the state with the move taken and the transfer noted in the trace, with its request
type and the sequencer's control timeout; a reserved record is refused (in every state, log 23); and
a table word laid by `withFetchWord` is the very next record. -/
def Obligations.StepRunsRecord : Prop :=
  (∀ (s : State) (w : CmdWord) (rest : List Move) (i : Instr),
    s.agenda = .record w :: rest → decode s.cfg w = .ok i →
      step s = exec i { s with
        agenda := rest
        trace := .record s.cfg.requestType w s.seq.ctlTimeout :: s.trace }) ∧
  (∀ (s : State) (w : CmdWord) (rest : List Move) (e : DecodeError),
    s.agenda = .record w :: rest → decode s.cfg w = .error e →
      step s = .refused .reservedEncoding) ∧
  ∀ (s : State) (nbits w : Nat) (i : Instr), s.cfg = Config.reference →
    decodeTableWord nbits w = some i →
      step (s.withFetchWord nbits w) = exec i { s with
        trace := .record s.cfg.requestType (tableWord nbits w) s.seq.ctlTimeout :: s.trace }

/-- R36, R43, R45: a record that the sequencer sends and the Transport carries runs the same meaning, sent
with the request type and the control timeout the sequencer holds, and the sequencer forgets its
tail when the record is the device reset; a transfer that fails raises `TransportError`, and the
bridge is as it was or has run the record, as the environment chooses. -/
def Obligations.SequencerRunsRecord : Prop :=
  ∀ (s u v : State) (w : CmdWord) (rest : List Micro) (i : Instr),
    s.seq.phase = .ctl w :: rest → decode s.cfg w = .ok i →
      u = { s with seq := { s.seq with phase := rest } } →
      v = { u with trace := .record s.cfg.requestType w s.seq.ctlTimeout :: s.trace } →
      seqStep .ok s =
        andThen (exec i v) (fun t =>
          .next (if i = .ctlResetDevice then { t with seq := { t.seq with rtail := [] } } else t)) ∧
      seqStep .lost s = .next (raiseError .transportError u) ∧
      seqStep .delivered s =
        andThen (exec i v) fun t => .next (raiseError .transportError t)

/-! ### Reset values -/

/-- R70, column "model start", with R43: every value the spec gives, under every configuration, and the
position in the micro-sequence, which the model holds as the list of what is left (log 15); the
reset state holds the reference configuration. -/
def Obligations.ResetValues : Prop :=
  (∀ (c : Config) (q : Seq), q = (State.start c).seq →
    q.handle = .closed ∧ q.busy = false ∧ q.speed = c.speeds.regular ∧ q.pollMax = 100 ∧
      q.ctlTimeout = c.ctlTimeout ∧ q.bulkTimeout = c.bulkTimeout ∧
      q.present = false ∧ q.vpp = false ∧ q.rtail = [] ∧ q.lastSf = 0x00#8 ∧
      q.ss = { lastDiscrepancy := none, lastDeviceFlag := false, currentRom := 0#64 } ∧
      q.op = none ∧ q.phase = [] ∧ q.n = 0 ∧ q.i = 0 ∧ q.lastZero = none ∧ q.workRom = 0#64) ∧
  (∀ (c : Config) (b : Brg), b = (State.start c).brg →
    b.en = 0x00#8 ∧ b.speed = c.speeds.regular ∧ b.epof = true ∧ b.halt = false ∧
      b.curcmd = 0x0000#16 ∧ b.cbuf = [] ∧ b.wbuf = [] ∧ b.rbuf = [] ∧ b.resq = [] ∧
      b.exec = .idle ∧ b.cur = none ∧ b.k = 0 ∧ b.m = 0 ∧ b.pulse = .off ∧ b.fault = .none) ∧
  (∀ c : Config, (State.start c).now = 0) ∧
  State.reset = State.start Config.reference

/-! ### Control commands (40_control_commands.md) -/

/-- R151: from every state, a desynchronised or busy one too, the device reset gives every register its
value, the five unspecified ones some value, and leaves the rest of the machine as it was; sent by
the sequencer it also empties `rtail`. -/
def Obligations.ResetDevice : Prop :=
  (∀ s : State, ∃ (t : State) (spud ppd slew tp0 tp1 : Byte) (d : Nat),
    exec .ctlResetDevice s = .next t ∧
      t = { s with
        draws := d
        brg :=
          { en := 0x00#8, speed := s.cfg.speeds.regular, spud := spud, ppd := ppd, slew := slew,
            tp0 := tp0, tp1 := tp1, halt := false, epof := false, curcmd := 0x0000#16,
            cbuf := [], wbuf := [], rbuf := [], resq := [], fault := .none, exec := .idle,
            cur := none, k := 0, m := 0, pulse := .off, stage := .body, x := 0#8, e := 0#8,
            res := 0#8 } } ∧
      statusFlags t =
        s.cfg.flags.idle ||| flagIf s.vppIn s.cfg.flags.v12p |||
          flagIf s.pmodIn s.cfg.flags.pmod) ∧
  ∀ (s : State) (rest : List Micro) (w : CmdWord),
    s.seq.phase = .ctl w :: rest → decode s.cfg w = .ok .ctlResetDevice →
      ∃ t, seqStep .ok s = .next t ∧ t.seq.rtail = [] ∧ t.brg.fault = .none ∧ t.brg.epof = false

/-- R152: a halt sets `HALT` and ends any pulse; when the pulse is that of a `COMM_PULSE` the command
completes with one `0x00`; a halted idle engine starts nothing; nothing else changes. -/
def Obligations.HaltExe : Prop :=
  (∀ s : State, s.brg.fault = .none → s.brg.pulse = .off →
    exec .ctlHaltExe s = .next { s with brg := { s.brg with halt := true } }) ∧
  (∀ (s : State) (o : CommOpts) (type : PulseKind),
    s.brg.fault = .none → s.brg.pulse ≠ .off → s.brg.exec = .busy →
      s.brg.cur = some (.commPulse o type) →
      exec .ctlHaltExe s = .next { s with brg :=
        { s.brg.atRest with halt := true, pulse := .off, resq := s.brg.resq ++ [0x00#8] } }) ∧
  (∀ s : State, s.brg.fault = .none → s.brg.pulse ≠ .off →
    (∀ o type, ¬(s.brg.exec = .busy ∧ s.brg.cur = some (.commPulse o type))) →
      exec .ctlHaltExe s = .next { s with brg := { s.brg with halt := true, pulse := .off } }) ∧
  ∀ s : State, s.brg.fault = .none → s.brg.halt = true → s.brg.exec = .idle → brgStep s = .next s

/-- R153: a resume clears `HALT` and nothing else; then a waiting record starts in a later step of the
bridge. -/
def Obligations.ResumeExe : Prop :=
  (∀ s : State, s.brg.fault = .none →
    exec .ctlResumeExe s = .next { s with brg := { s.brg with halt := false } }) ∧
  ∀ (s : State) (c : Instr) (rest : List Instr),
    s.brg.fault = .none → s.brg.exec = .idle → s.brg.cbuf = c :: rest →
      runComm .ctlResumeExe 1 s = .next { s with brg :=
        { s.brg with
          halt := false, cbuf := rest, exec := .busy, cur := some c, curcmd := c.value s.cfg, k := 0,
          m := 0, stage := .body, x := 0#8, e := 0#8, res := 0#8 } }

/-- R154, R155, R156, R380: each flush empties its buffer while execution is idle and no record waits,
and breaks the hazard rule while it is busy; nothing else changes. While a halted record waits it does
the first under a configuration that follows R154 there and the second under one that follows R380
(that both are admitted is the model's choice, log 9). -/
def Obligations.Flushes : Prop :=
  ∀ s : State, s.brg.fault = .none →
    (s.brg.exec = .idle → s.brg.cbuf = [] ∨ s.cfg.readings.waitingBlocksFlush = false →
      exec .ctlFlushComm s = .next { s with brg := { s.brg with cbuf := [] } } ∧
        exec .ctlFlushRead s = .next { s with brg := { s.brg with rbuf := [] } } ∧
        exec .ctlFlushWrite s = .next { s with brg := { s.brg with wbuf := [] } }) ∧
    (s.brg.exec = .busy ∨ s.brg.cbuf ≠ [] ∧ s.cfg.readings.waitingBlocksFlush = true →
      ∀ i, i = .ctlFlushComm ∨ i = .ctlFlushRead ∨ i = .ctlFlushWrite →
        exec i s = .next { s with brg := { s.brg with fault := .desync } })

/-! ### Mode commands (42_mode_commands.md) -/

/-- R200 to R208: with no comm command outstanding each mode command writes its register in the step that
accepts it, and nothing else changes. -/
def Obligations.ModeWrites : Prop :=
  ∀ s : State, s.brg.ready = true →
    (∀ spue prge, exec (.modePulseEn spue prge) s =
      .next { s with brg := { s.brg with en := enableFlags s.cfg spue prge (s.brg.spce s.cfg) } }) ∧
    (∀ spce, exec (.modeSpeedChangeEn spce) s =
      .next { s with brg :=
        { s.brg with en := enableFlags s.cfg (s.brg.spue s.cfg) (s.brg.prge s.cfg) spce } }) ∧
    (∀ v, exec (.modeBusSpeed v) s = .next { s with brg := { s.brg with speed := v } }) ∧
    (∀ v, exec (.modePullupDuration v) s = .next { s with brg := { s.brg with spud := v } }) ∧
    (∀ v, exec (.modeSlewRate v) s = .next { s with brg := { s.brg with slew := v } }) ∧
    (∀ v, exec (.modePulseDuration v) s = .next { s with brg := { s.brg with ppd := v } }) ∧
    (∀ v, exec (.modeTiming0 v) s = .next { s with brg := { s.brg with tp0 := v } }) ∧
    (∀ v, exec (.modeTiming1 v) s = .next { s with brg := { s.brg with tp1 := v } })

/-- R201 to R208, R209 (3): what a mode command wrote is what the Status Record then shows, every other
byte of the record as before; `MODE_PULSE_EN` keeps `SPCE`, `MODE_SPEED_CHANGE_EN` keeps the two
pulse enables, and the reserved enable bits read 0. -/
def Obligations.ModeEchoed : Prop :=
  ∀ (s : State) (f : FlagMasks) (l : StatusLayout), s.cfg.Legal → s.cfg.flags = f →
    s.cfg.layout = l → s.brg.ready = true →
    (∀ spue prge, ∃ t, exec (.modePulseEn spue prge) s = .next t ∧
      testFlag (statusByte t l.en) f.spue = spue ∧ testFlag (statusByte t l.en) f.prge = prge ∧
      testFlag (statusByte t l.en) f.spce = testFlag (statusByte s l.en) f.spce ∧
      statusByte t l.en &&& ~~~(f.spue ||| f.prge ||| f.spce) = 0#8 ∧
      ∀ j, j ≠ l.en → statusByte t j = statusByte s j) ∧
    (∀ spce, ∃ t, exec (.modeSpeedChangeEn spce) s = .next t ∧
      testFlag (statusByte t l.en) f.spce = spce ∧
      testFlag (statusByte t l.en) f.spue = testFlag (statusByte s l.en) f.spue ∧
      testFlag (statusByte t l.en) f.prge = testFlag (statusByte s l.en) f.prge ∧
      statusByte t l.en &&& ~~~(f.spue ||| f.prge ||| f.spce) = 0#8 ∧
      ∀ j, j ≠ l.en → statusByte t j = statusByte s j) ∧
    ∀ v, ∀ p ∈ [(Instr.modeBusSpeed v, l.speed), (.modePullupDuration v, l.spud),
      (.modePulseDuration v, l.pdur0), (.modeTiming0 v, l.pdur1), (.modeTiming1 v, l.pdur2),
      (.modeSlewRate v, l.slew)],
      ∃ t, exec p.1 s = .next t ∧ statusByte t p.2 = v ∧
        ∀ j, j ≠ p.2 → statusByte t j = statusByte s j

/-! ### The hazard rule and DESYNC -/

/-- R62: a comm or mode record that arrives while a comm command is outstanding sets `DESYNC` and does
nothing else; while it lasts every answer and every step of the bridge is a fault; and it ends only
with a device reset or a power-on. -/
def Obligations.Desync : Prop :=
  (∀ (s : State) (i : Instr), s.brg.fault = .none → s.brg.outstanding = true →
    i.category ≠ .control →
      exec i s = .next { s with brg := { s.brg with fault := .desync } }) ∧
  (∀ s : State, s.brg.fault = .desync →
    (∀ i, i ≠ .ctlResetDevice → exec i s = .fault .desync) ∧ brgStep s = .fault .desync ∧
      (∀ bytes, applyMove (.dataOut bytes) s = .fault .desync) ∧
      (∀ n, applyMove (.dataIn n) s = .fault .desync) ∧ applyMove .status s = .fault .desync) ∧
  (∀ (s t : State) (m : Move), s.brg.fault = .desync → applyMove m s = .next t →
    t.brg.fault = .desync ∨ m = .por ∨
      (∃ w, m = .record w ∧ decode s.cfg w = .ok .ctlResetDevice) ∨
      ∃ (fate : Fate) (rest : List Micro), m = .seq fate ∧
        ((∃ w, s.seq.phase = .ctl w :: rest ∧ decode s.cfg w = .ok .ctlResetDevice) ∨
          ∃ idle, s.seq.phase = .pollReset idle :: rest)) ∧
  State.reset.brg.fault = .none

/-! ### Comm commands: acceptance (41_comm_commands.md R170, 30_encoding.md R123) -/

/-- R170, R153: every comm record the bridge can execute, accepted while none is outstanding, starts when
execution is not halted, and waits, with `IDLE` 0, when it is, until a resume and one step of the
bridge start it; nothing but the engine's own registers changes. `runnable` names
`COMM_SET_DURATION`, `COMM_BIT_IO`, `COMM_PULSE`, `COMM_ONEWIRE_RESET`, `COMM_BYTE_IO` and
`COMM_BLOCK_IO`, in every form that is not reserved and not refused by R123. -/
def Obligations.CommStarts : Prop :=
  ∀ (i : Instr) (s : State), s.cfg.Legal → i.runnable s.cfg = true → s.brg.ready = true →
    (s.brg.halt = false →
      exec i s = .next { s with brg :=
        { s.brg with
          exec := .busy, cur := some i, curcmd := i.value s.cfg, k := 0, m := 0, stage := .body,
          x := 0#8, e := 0#8, res := 0#8 } }) ∧
    (s.brg.halt = true →
      exec i s = .next { s with brg := { s.brg with cbuf := [i] } } ∧
        (∀ t, exec i s = .next t → recordIdle s.cfg (statusRecord t) = false) ∧
        andThen (exec i s) (runComm .ctlResumeExe 1) = .next { s with brg :=
          { s.brg with
            halt := false, cbuf := [], exec := .busy, cur := some i, curcmd := i.value s.cfg, k := 0,
            m := 0, stage := .body, x := 0#8, e := 0#8, res := 0#8 } })

/-- R123, R170, R333: the refused option forms of every comm record, in the order of the tests, halted or
not; and `COMM_SEARCH_ACCESS`, refused in every form (R176). -/
def Obligations.RefusedForms : Prop :=
  (∀ (i : Instr) (o : CommOpts) (s : State),
    (∃ type code, i = .commSetDuration o type code) ∨ (∃ d, i = .commBitIo o d) ∨
      (∃ type, i = .commPulse o type) ∨ (∃ se speed, i = .commOnewireReset o se speed) ∨
      (∃ x, i = .commByteIo o x) ∨ (∃ n, i = .commBlockIo o n) ∨
      (∃ index, i = .commSearchAccess o index) →
    s.brg.ready = true →
      (o.im = false → exec i s = .refused .notImmediate) ∧
      (o.im = true → o.ac = true → exec i s = .refused .afterCompletion) ∧
      (o.im = true → o.ac = false → o.spu = true → o.ra = true →
        exec i s = .refused .pullUpWithReset)) ∧
  ∀ (o : CommOpts) (index : Half) (s : State), s.brg.ready = true →
    (o.executable = true → exec (.commSearchAccess o index) s = .refused .searchAccess) ∧
      ∀ t, exec (.commSearchAccess o index) s ≠ .next t

/-! ### Comm commands: what each does -/

/-- R177: a duration command writes its one register and completes with `0x00`; no bus cycle, nothing
else changes. -/
def Obligations.SetDurationRuns : Prop :=
  ∀ (o : CommOpts) (type : PulseKind) (code : Byte) (s : State),
    Instr.runnable s.cfg (.commSetDuration o type code) = true → s.brg.ready = true →
      s.brg.halt = false →
      runComm (.commSetDuration o type code) 2 s = .next { s with brg :=
        { s.brg.atRest with
          spud := if type = .spu then code else s.brg.spud
          ppd := if type = .prg then code else s.brg.ppd
          curcmd := (Instr.commSetDuration o type code).value s.cfg
          resq := s.brg.resq ++ [0x00#8] } }

/-- R172: a bus reset latches the speed when `SE` is set, makes one reset cycle at the speed register and
completes with the bits of its answer; no data is put in `RBUF`. -/
def Obligations.OnewireResetRuns : Prop :=
  ∀ (o : CommOpts) (se : Bool) (speed v : Byte) (s : State) (a : ResetAnswer) (u : State),
    Instr.runnable s.cfg (.commOnewireReset o se speed) = true → s.brg.ready = true →
      s.brg.halt = false → v = (if se then speed else s.brg.speed) →
      wireReset { s with brg := { s.brg with speed := v } } = (a, u) →
      runComm (.commOnewireReset o se speed) 2 s =
        .next { s with
          wire := u.wire
          draws := u.draws
          trace := .wireReset v :: s.trace
          brg := { s.brg.atRest with
            speed := v
            curcmd := (Instr.commOnewireReset o se speed).value s.cfg
            resq := s.brg.resq ++
              [flagIf a.short 0x02#8 ||| flagIf (!a.presence) 0x01#8 |||
                flagIf a.alarm 0x04#8] } }

/-- R173, R86: a bit command makes one slot and puts its level in bit 0 of one byte of `RBUF`, whatever
its options; then come the epilogues. -/
def Obligations.BitIoBody : Prop :=
  ∀ (o : CommOpts) (d r : Bool) (s u : State),
    o.executable = true → s.brg.ready = true → s.brg.halt = false →
      s.brg.rbuf.length < s.cfg.bufCap → wireSlot d s = (r, u) →
      runComm (.commBitIo o d) 1 s = .next { u with brg :=
        { s.brg with
          rbuf := s.brg.rbuf ++ [if r then 0x01#8 else 0x00#8]
          exec := .busy
          cur := some (.commBitIo o d)
          curcmd := (Instr.commBitIo o d).value s.cfg
          k := 0
          m := 0
          stage := o.stageAfterBody
          x := 0#8
          e := 0#8
          res := 0#8 } }

/-- R174: a byte command makes the eight slots of its byte, least significant bit first, and puts the byte
they echo in `RBUF`, whatever its options; then come the epilogues. -/
def Obligations.ByteIoBody : Prop :=
  ∀ (o : CommOpts) (x echo : Byte) (s u : State),
    o.executable = true → s.brg.ready = true → s.brg.halt = false →
      s.brg.rbuf.length < s.cfg.bufCap → sendByte x s = (echo, u) →
      runComm (.commByteIo o x) 8 s = .next { u with brg :=
        { s.brg with
          rbuf := s.brg.rbuf ++ [echo]
          exec := .busy
          cur := some (.commByteIo o x)
          curcmd := (Instr.commByteIo o x).value s.cfg
          k := 0
          m := 0
          stage := o.stageAfterBody
          x := x
          e := 0#8
          res := 0#8 } }

/-- R175: a block command sends the `n` oldest bytes of `WBUF` in `8 * n` slots, puts their echoes in
`RBUF` and leaves the rest of `WBUF`; then come the epilogues. -/
def Obligations.BlockIoBody : Prop :=
  ∀ (o : CommOpts) (n : Half) (xs rest echoes : List Byte) (s u : State),
    Instr.runnable s.cfg (.commBlockIo o n) = true → s.brg.ready = true → s.brg.halt = false →
      s.brg.wbuf = xs ++ rest → xs.length = n.toNat →
      s.brg.rbuf.length + n.toNat ≤ s.cfg.bufCap → sendBytes xs s = (echoes, u) →
      ∃ t, runComm (.commBlockIo o n) (8 * n.toNat) s = .next t ∧
        t = { u with brg :=
          { s.brg with
            wbuf := rest
            rbuf := s.brg.rbuf ++ echoes
            exec := .busy
            cur := some (.commBlockIo o n)
            curcmd := (Instr.commBlockIo o n).value s.cfg
            k := 0
            m := n.toNat
            stage := o.stageAfterBody
            x := xs.getLastD 0#8
            e := 0#8
            res := 0#8 } }

/-- R173, R175: a bit or a byte command that finds `RBUF` full is refused, and so is a block command with
too few bytes in `WBUF` or too little room in `RBUF`. -/
def Obligations.BufferRefusals : Prop :=
  ∀ (o : CommOpts) (s : State), o.executable = true → s.brg.ready = true → s.brg.halt = false →
    (s.brg.rbuf.length = s.cfg.bufCap →
      (∀ d, runComm (.commBitIo o d) 1 s = .refused .readBufferFull) ∧
        ∀ x, runComm (.commByteIo o x) 8 s = .refused .readBufferFull) ∧
    ∀ n : Half, n ≠ 0#16 →
      s.brg.wbuf.length < n.toNat ∨ s.cfg.bufCap < s.brg.rbuf.length + n.toNat →
      runComm (.commBlockIo o n) 1 s = .refused .blockBuffers

/-- R178: what gates a pulse. A disabled pulse completes with `0x00` and does nothing; a programming pulse
without its supply completes with `RR_VPP`, and with duration code 0 is refused; otherwise the
pulse begins and the command stays busy. -/
def Obligations.PulseGates : Prop :=
  ∀ (o : CommOpts) (s : State), o.executable = true → o.noEpilogue = true → s.brg.ready = true →
    s.brg.halt = false →
      (s.brg.spue s.cfg = false →
        runComm (.commPulse o .spu) 2 s = .next { s with brg :=
          { s.brg.atRest with
            curcmd := (Instr.commPulse o .spu).value s.cfg, resq := s.brg.resq ++ [0x00#8] } }) ∧
      (s.brg.prge s.cfg = false →
        runComm (.commPulse o .prg) 2 s = .next { s with brg :=
          { s.brg.atRest with
            curcmd := (Instr.commPulse o .prg).value s.cfg, resq := s.brg.resq ++ [0x00#8] } }) ∧
      (s.brg.prge s.cfg = true → s.vppIn = false →
        runComm (.commPulse o .prg) 2 s = .next { s with brg :=
          { s.brg.atRest with
            curcmd := (Instr.commPulse o .prg).value s.cfg, resq := s.brg.resq ++ [0x08#8] } }) ∧
      (s.brg.prge s.cfg = true → s.vppIn = true → s.brg.ppd = 0x00#8 →
        runComm (.commPulse o .prg) 1 s = .refused .zeroPulseDuration) ∧
      (s.brg.spue s.cfg = true →
        runComm (.commPulse o .spu) 1 s = .next { s with
          trace := .pulse .spu s.brg.spud :: s.trace
          brg := { s.brg with
            pulse := .spu (pullUpTime s.cfg s.brg.spud), exec := .busy,
            cur := some (.commPulse o .spu), curcmd := (Instr.commPulse o .spu).value s.cfg, k := 0,
            m := 0, stage := .pulsing, x := 0#8, e := 0#8, res := 0#8 } }) ∧
      (s.brg.prge s.cfg = true → s.vppIn = true → s.brg.ppd ≠ 0x00#8 →
        runComm (.commPulse o .prg) 1 s = .next { s with
          trace := .pulse .prg s.brg.ppd :: s.trace
          brg := { s.brg with
            pulse := .prg (programTime s.cfg s.brg.ppd), exec := .busy,
            cur := some (.commPulse o .prg), curcmd := (Instr.commPulse o .prg).value s.cfg, k := 0,
            m := 0, stage := .pulsing, x := 0#8, e := 0#8, res := 0#8 } })

/-- R64, R178, R52: a strong pull-up of code `c` other than the infinite one lasts `16 * c`
milliseconds: after less time the engine makes no step, after that time it ends the pulse and
completes; one of the infinite code never ends by itself. -/
def Obligations.PullUpLasts : Prop :=
  ∀ (s : State) (c : Instr) (ms : Nat), s.cfg.Legal → s.brg.fault = .none → s.brg.exec = .busy →
    s.brg.cur = some c → s.brg.stage = .pulsing → s.brg.pulse = .spu (pullUpTime s.cfg s.brg.spud) →
      (s.brg.spud = s.cfg.spudInfinite ∨ ms < 16 * s.brg.spud.toNat →
        andThen (applyMove (.clock ms) s) brgStep = applyMove (.clock ms) s ∧
          ∀ t, applyMove (.clock ms) s = .next t → testFlag (statusFlags t) s.cfg.flags.spua = true) ∧
      (s.brg.spud ≠ s.cfg.spudInfinite → 16 * s.brg.spud.toNat ≤ ms →
        andThen (applyMove (.clock ms) s) brgStep = .next { s with
          now := s.now + ms
          brg := { s.brg.atRest with
            pulse := .off, resq := s.brg.resq ++ [s.brg.res] } })

/-- R170, R180, R181: after the body the reset epilogue makes one reset cycle at the speed register and
ORs its bits into the result; the pull-up epilogue begins a strong pull-up when `SPUE` is set, the
command staying busy, and does nothing otherwise; completion appends the OR of the result bits and
clears busy. -/
def Obligations.Epilogues : Prop :=
  ∀ (s : State) (c : Instr), s.brg.fault = .none → s.brg.exec = .busy → s.brg.cur = some c →
    (∀ (a : ResetAnswer) (u : State), c.runnable s.cfg = true → wantsPullUp c = false →
      s.brg.stage = .resetAfter → wireReset s = (a, u) →
      brgStep s = .next { u with brg :=
        { s.brg with
          stage := .finish
          res := s.brg.res |||
            (flagIf a.short 0x02#8 ||| flagIf (!a.presence) 0x01#8 |||
              flagIf a.alarm 0x04#8) } }) ∧
    (s.brg.stage = .pullUp → s.brg.spue s.cfg = true →
      brgStep s = .next { s with
        trace := .pulse .spu s.brg.spud :: s.trace
        brg := { s.brg with pulse := .spu (pullUpTime s.cfg s.brg.spud), stage := .pulsing } }) ∧
    (s.brg.stage = .pullUp → s.brg.spue s.cfg = false →
      brgStep s = .next { s with brg := { s.brg with stage := .finish } }) ∧
    (s.brg.stage = .finish →
      brgStep s = .next { s with brg :=
        { s.brg.atRest with resq := s.brg.resq ++ [s.brg.res] } })

/-- R171: a step of the bridge engine appends one result byte exactly when it completes a command, and
that byte is the OR of the error bits that arose; a command abandoned by a device reset appends
nothing. -/
def Obligations.OneResultPerCommand : Prop :=
  (∀ s t : State, brgStep s = .next t →
    (s.brg.exec = .busy ∧ t.brg.exec = .idle ∧ t.brg.resq = s.brg.resq ++ [s.brg.res]) ∨
      (t.brg.resq = s.brg.resq ∧ (s.brg.exec = .busy → t.brg.exec = .busy))) ∧
  ∀ s t : State, exec .ctlResetDevice s = .next t → t.brg.exec = .idle ∧ t.brg.resq = []

/-- R174, R37: an echo has no bit that was written 0, and equals the byte exactly when every slot that
wrote a 1 was answered 1. -/
def Obligations.EchoOnlyLosesBits : Prop :=
  ∀ (x : Byte) (s : State),
    (sendByte x s).1 &&& ~~~x = 0#8 ∧
      ((sendByte x s).1 = x ↔ (sendBits (byteBits x) s).1 = byteBits x)

/-! ### Frames -/

/-- What a record leaves alone when it is accepted. Always: the configuration, the sequencer, the clock,
the pins, the WIRE, the moves to come and the trace. Of the bridge, unless it is the device reset:
a mode register unless the record is the mode command that names it; `HALT`, `EPOF`, `CURCMD`, the
buffers, the results, the pulse and the execution of a command unless its rule names them; and
`DESYNC` is set only by the hazard rule, everything else then unchanged. -/
def Obligations.AcceptanceFrame : Prop :=
  ∀ (i : Instr) (s t : State), exec i s = .next t →
    (t.cfg = s.cfg ∧ t.seq = s.seq ∧ t.now = s.now ∧ t.vppIn = s.vppIn ∧ t.pmodIn = s.pmodIn ∧
      t.wire = s.wire ∧ t.agenda = s.agenda ∧ t.lastIn = s.lastIn ∧ t.trace = s.trace) ∧
    (i ≠ .ctlResetDevice →
      t.draws = s.draws ∧ t.brg.epof = s.brg.epof ∧
      (t.brg.fault = s.brg.fault ∨
        s.brg.outstanding = true ∧ t = { s with brg := { s.brg with fault := .desync } }) ∧
      ((∀ a b, i ≠ .modePulseEn a b) → (∀ a, i ≠ .modeSpeedChangeEn a) → t.brg.en = s.brg.en) ∧
      ((∀ v, i ≠ .modeBusSpeed v) → t.brg.speed = s.brg.speed) ∧
      ((∀ v, i ≠ .modePullupDuration v) → t.brg.spud = s.brg.spud) ∧
      ((∀ v, i ≠ .modePulseDuration v) → t.brg.ppd = s.brg.ppd) ∧
      ((∀ v, i ≠ .modeSlewRate v) → t.brg.slew = s.brg.slew) ∧
      ((∀ v, i ≠ .modeTiming0 v) → t.brg.tp0 = s.brg.tp0) ∧
      ((∀ v, i ≠ .modeTiming1 v) → t.brg.tp1 = s.brg.tp1) ∧
      (i ≠ .ctlHaltExe → i ≠ .ctlResumeExe → t.brg.halt = s.brg.halt) ∧
      (i ≠ .ctlHaltExe → t.brg.pulse = s.brg.pulse ∧ t.brg.resq = s.brg.resq) ∧
      (i.category ≠ .comm → t.brg.curcmd = s.brg.curcmd) ∧
      (i ≠ .ctlFlushRead → t.brg.rbuf = s.brg.rbuf) ∧
      (i ≠ .ctlFlushWrite → t.brg.wbuf = s.brg.wbuf) ∧
      (i ≠ .ctlFlushComm → i.category ≠ .comm → t.brg.cbuf = s.brg.cbuf) ∧
      (i ≠ .ctlHaltExe → i.category ≠ .comm ∨ s.brg.halt = true →
        t.brg.exec = s.brg.exec ∧ t.brg.cur = s.brg.cur ∧ t.brg.k = s.brg.k ∧ t.brg.m = s.brg.m ∧
          t.brg.stage = s.brg.stage ∧ t.brg.x = s.brg.x ∧ t.brg.e = s.brg.e ∧
          t.brg.res = s.brg.res))

/-- What a step of the bridge engine leaves alone: the configuration, the sequencer, the clock, the
pins, the moves to come, `EN`, the slew and timing registers, `HALT`, `EPOF` and the fault always;
`SPEED` unless a bus reset with `SE` is in execution; `SPUD` and `PPD` unless a duration command is;
`WBUF` unless a block command is. What it adds to `RBUF` is at most one byte at the end, and the
trace only grows. -/
def Obligations.EngineFrame : Prop :=
  ∀ s t : State, brgStep s = .next t →
    t.cfg = s.cfg ∧ t.seq = s.seq ∧ t.now = s.now ∧ t.vppIn = s.vppIn ∧ t.pmodIn = s.pmodIn ∧
      t.agenda = s.agenda ∧ t.lastIn = s.lastIn ∧ t.brg.en = s.brg.en ∧
      t.brg.slew = s.brg.slew ∧ t.brg.tp0 = s.brg.tp0 ∧ t.brg.tp1 = s.brg.tp1 ∧
      t.brg.halt = s.brg.halt ∧ t.brg.epof = s.brg.epof ∧ t.brg.fault = s.brg.fault ∧
      ((∀ o v, s.brg.cur ≠ some (.commOnewireReset o true v)) → t.brg.speed = s.brg.speed) ∧
      ((∀ o type c, s.brg.cur ≠ some (.commSetDuration o type c)) →
        t.brg.spud = s.brg.spud ∧ t.brg.ppd = s.brg.ppd) ∧
      ((∀ o n, s.brg.cur ≠ some (.commBlockIo o n)) → t.brg.wbuf = s.brg.wbuf) ∧
      (t.brg.rbuf = s.brg.rbuf ∨ ∃ e, t.brg.rbuf = s.brg.rbuf ++ [e]) ∧
      ∃ evs, t.trace = evs ++ s.trace

/-- R81: only a step of the bridge engine, and the environment's own change of what is on the WIRE,
change the WIRE. -/
def Obligations.OnlyBridgeDrivesWire : Prop :=
  ∀ (m : Move) (s t : State), applyMove m s = .next t → m ≠ .brg → (∀ w, m ≠ .rewire w) →
    t.wire = s.wire

/-! ### The Status Record and the bulk transfers (10_state.md R56, R65, 20_memory.md) -/

/-- R65: every named byte at its offset of `STATUS_LAYOUT`, whatever the layout; in the reference layout
the sixteen fixed bytes in order, then the result-register queue, oldest first. -/
def Obligations.StatusLayout : Prop :=
  (∀ (s : State) (l : Sys2Proof.StatusLayout), s.cfg.Legal → s.cfg.layout = l →
    statusByte s l.en = s.brg.en ∧ statusByte s l.speed = s.brg.speed ∧
      statusByte s l.spud = s.brg.spud ∧ statusByte s l.pdur0 = s.brg.ppd ∧
      statusByte s l.pdur1 = s.brg.tp0 ∧ statusByte s l.pdur2 = s.brg.tp1 ∧
      statusByte s l.pdur3 = 0x00#8 ∧ statusByte s l.slew = s.brg.slew ∧
      statusByte s l.rsv0 = 0x00#8 ∧ statusByte s l.rsv1 = 0x00#8 ∧
      statusByte s l.sf = statusFlags s ∧ statusByte s l.cmdLo = s.brg.curcmd.low ∧
      statusByte s l.cmdHi = s.brg.curcmd.high ∧
      statusByte s l.cbuf = BitVec.ofNat 8 (min s.brg.cbuf.length 255) ∧
      statusByte s l.wbuf = BitVec.ofNat 8 (min s.brg.wbuf.length 255) ∧
      statusByte s l.rbuf = BitVec.ofNat 8 (min s.brg.rbuf.length 255)) ∧
  ∀ s : State, s.cfg.layout = Config.referenceLayout → statusRecord s =
    [s.brg.en, s.brg.speed, s.brg.spud, s.brg.ppd, s.brg.tp0, s.brg.tp1, 0x00#8, s.brg.slew,
      0x00#8, 0x00#8, statusFlags s, s.brg.curcmd.low, s.brg.curcmd.high,
      BitVec.ofNat 8 (min s.brg.cbuf.length 255), BitVec.ofNat 8 (min s.brg.wbuf.length 255),
      BitVec.ofNat 8 (min s.brg.rbuf.length 255)] ++ s.brg.resq

/-- R56: each status flag, from the pulse, the pins, the two stored bits, and execution and the comm
buffer, whatever the masks; in the reference masks, bit by bit, with the reserved bit 0. -/
def Obligations.StatusFlagBits : Prop :=
  (∀ (s : State) (f : FlagMasks), s.cfg.Legal → s.cfg.flags = f →
    (testFlag (statusFlags s) f.spua = true ↔ ∃ left, s.brg.pulse = .spu left) ∧
      (testFlag (statusFlags s) f.prga = true ↔ ∃ left, s.brg.pulse = .prg left) ∧
      testFlag (statusFlags s) f.v12p = s.vppIn ∧ testFlag (statusFlags s) f.pmod = s.pmodIn ∧
      testFlag (statusFlags s) f.halt = s.brg.halt ∧
      (testFlag (statusFlags s) f.idle = true ↔ s.brg.exec = .idle ∧ s.brg.cbuf = []) ∧
      testFlag (statusFlags s) f.epof = s.brg.epof) ∧
  ∀ s : State, s.cfg.flags = Config.referenceFlags →
    ((statusFlags s).getLsbD 0 = true ↔ ∃ left, s.brg.pulse = .spu left) ∧
      ((statusFlags s).getLsbD 1 = true ↔ ∃ left, s.brg.pulse = .prg left) ∧
      (statusFlags s).getLsbD 2 = s.vppIn ∧ (statusFlags s).getLsbD 3 = s.pmodIn ∧
      (statusFlags s).getLsbD 4 = s.brg.halt ∧
      ((statusFlags s).getLsbD 5 = true ↔ s.brg.exec = .idle ∧ s.brg.cbuf = []) ∧
      (statusFlags s).getLsbD 6 = false ∧ (statusFlags s).getLsbD 7 = s.brg.epof

/-- R91: a status read returns the record and drains the tail; when the Transport fails the
sequencer raises `TransportError`, the tail drained or not; while `DESYNC` the run faults. The read
carries the status endpoint and the bulk timeout the sequencer holds (R36, R43). -/
def Obligations.StatusRead : Prop :=
  ∀ s : State,
    (s.brg.fault = .none →
      applyMove .status s = .next { s with
        brg := { s.brg with resq := [] }
        lastIn := statusRecord s
        trace := .status s.cfg.epStatus s.seq.bulkTimeout :: s.trace } ∧
      ∀ k, readStatus .lost k s = .next (raiseError .transportError s) ∧
        readStatus .delivered k s = .next (raiseError .transportError
          { s with
            brg := { s.brg with resq := [] }
            trace := .status s.cfg.epStatus s.seq.bulkTimeout :: s.trace })) ∧
    (s.brg.fault = .desync → applyMove .status s = .fault .desync)

/-- R92: a bulk write of at least one byte appends to `WBUF` in order; past `BUF_CAP` it is refused; while
a comm command is outstanding it sets `DESYNC`. That `DESYNC` comes before the refusal when both hold,
and that one write may be longer than `CHUNK_MAX`, is the model's choice (log 32, log 33). -/
def Obligations.DataOutWrite : Prop :=
  ∀ (bytes : List Byte) (s : State), bytes ≠ [] → s.brg.fault = .none →
    (s.brg.outstanding = true →
      applyMove (.dataOut bytes) s = .next { s with
        brg := { s.brg with fault := .desync }
        trace := .dataOut s.cfg.epDataOut bytes s.seq.bulkTimeout :: s.trace }) ∧
    (s.brg.outstanding = false → s.brg.wbuf.length + bytes.length ≤ s.cfg.bufCap →
      applyMove (.dataOut bytes) s = .next { s with
        brg := { s.brg with wbuf := s.brg.wbuf ++ bytes }
        trace := .dataOut s.cfg.epDataOut bytes s.seq.bulkTimeout :: s.trace }) ∧
    (s.brg.outstanding = false → s.cfg.bufCap < s.brg.wbuf.length + bytes.length →
      applyMove (.dataOut bytes) s = .refused .writeBufferFull)

/-- R93: a bulk read of `n` bytes removes and returns the `n` oldest; when fewer are there it returns what
is there, and the sequencer raises `TransportError`. -/
def Obligations.DataInRead : Prop :=
  ∀ (s : State) (got rest : List Byte) (n : Nat), s.brg.fault = .none → 1 ≤ n →
    s.brg.rbuf = got ++ rest →
      (got.length = n →
        applyMove (.dataIn n) s = .next { s with
          brg := { s.brg with rbuf := rest }
          lastIn := got
          trace := .dataIn s.cfg.epDataIn got s.seq.bulkTimeout :: s.trace } ∧
        readIn .ok n s = .next { s with
          brg := { s.brg with rbuf := rest }
          seq := { s.seq with bytes := s.seq.bytes ++ got }
          trace := .dataIn s.cfg.epDataIn got s.seq.bulkTimeout :: s.trace }) ∧
      (got.length < n → rest = [] →
        applyMove (.dataIn n) s = .next { s with
          brg := { s.brg with rbuf := [] }
          lastIn := got
          trace := .dataIn s.cfg.epDataIn got s.seq.bulkTimeout :: s.trace } ∧
        readIn .ok n s = .next (raiseError .transportError { s with
          brg := { s.brg with rbuf := [] }
          trace := .dataIn s.cfg.epDataIn got s.seq.bulkTimeout :: s.trace }))

/-! ### Invariants -/

/-- The reference configuration is legal, and from any legal configuration the invariants of both agents
hold at reset. -/
def Obligations.ResetInvariant : Prop :=
  State.reset.Inv ∧ ∀ c : Config, c.Legal → (State.start c).Inv

/-- Every step keeps the configuration and, under a legal one, the invariant of the bridge engine:
reserved enable bits 0, a legal speed, bounded buffers, result bytes only the sentinel, the four
bits a command can produce or an injected byte of the other four, at most one record waiting and
only for an idle engine, an idle engine at its idle values, a busy one with one executable command
that `CURCMD` echoes, a pulse only while its command is busy, and a block under way with the bytes
and the room it still needs. -/
def Obligations.BridgeInvariant : Prop :=
  ∀ s t : State, step s = .next t →
    t.cfg = s.cfg ∧ (s.cfg.Legal → s.brg.Inv s.cfg → t.brg.Inv t.cfg)

/-- Under a legal configuration every step keeps the invariant of the sequencer: busy exactly while
an operation with micro-steps is in progress that can still answer, only decodable records and,
unless the operation is `CMD`, only the sequencer's own forms ahead, idle values while idle, only
construction and teardown on a closed handle, legal speed and positions, and no identifier found or
answered that is not valid. -/
def Obligations.SequencerInvariant : Prop :=
  ∀ s t : State, s.cfg.Legal → s.seq.Inv s.cfg → step s = .next t → t.seq.Inv t.cfg

/-- R175: in a state with the bridge's invariant a block command that has made its first slot is never
refused: every step of its body goes on. -/
def Obligations.BlockNeverStarves : Prop :=
  ∀ (s : State) (o : CommOpts) (n : Half), s.brg.Inv s.cfg → s.brg.fault = .none →
    s.brg.exec = .busy → s.brg.cur = some (.commBlockIo o n) → s.brg.stage = .body →
      (s.brg.k ≠ 0 ∨ s.brg.m ≠ 0) → ∃ t, brgStep s = .next t

/-! ### The sequencer's procedures (43_sequencer_primitives.md) -/

/-- R223, R322: a bridge that never reports idle causes exactly `poll_max` status reads, with a delay
between each two, and then `Timeout`. -/
def Obligations.PollTimesOut : Prop :=
  ∀ (s : State) (rest : List Micro), s.cfg.Legal → s.seq.phase = pollIdle ++ rest → s.brg.fault = .none →
    s.brg.outstanding = true → s.brg.epof = false → 1 ≤ s.seq.pollMax →
      ∃ t, runMoves (seqOk :: busyPolls s.cfg (s.seq.pollMax - 1) ++ [seqOk]) s =
          .next (raiseError .timeout t) ∧
        t.seq.phase = rest ∧ t.seq.n = s.seq.pollMax ∧
        t.now = s.now + (s.seq.pollMax - 1) * s.cfg.tPoll ∧
        t.trace.count (.status s.cfg.epStatus s.seq.bulkTimeout) =
          s.trace.count (.status s.cfg.epStatus s.seq.bulkTimeout) + s.seq.pollMax ∧
        t.trace.count (.delay s.cfg.tPoll) =
          s.trace.count (.delay s.cfg.tPoll) + (s.seq.pollMax - 1)

/-- R223, R331, R332, R333: a poll whose first read finds the bridge idle returns at once, after one read
and no delay; a poll that sees `EPOF` sends the device reset and empties the tail before it tests for
idle, then returns when the record it read showed idle, at the last read too, and otherwise raises
`Timeout` at the last read and goes on before it. -/
def Obligations.PollReads : Prop :=
  (∀ (s : State) (rest : List Micro), s.cfg.Legal → s.seq.phase = pollIdle ++ rest →
    s.brg.fault = .none → s.brg.outstanding = false → s.brg.epof = false →
      runMoves [seqOk, seqOk] s = .next { s with
        brg := { s.brg with resq := [] }
        seq := { s.seq with
          phase := rest, n := 1, lastSf := statusFlags s, rtail := s.seq.rtail ++ s.brg.resq }
        trace := .status s.cfg.epStatus s.seq.bulkTimeout :: s.trace }) ∧
  ∀ (s : State) (rest : List Micro), s.cfg.Legal → s.seq.phase = .pollRead :: rest →
    s.brg.fault = .none → s.brg.epof = true →
      ∃ t, t.brg.epof = false ∧ t.brg.en = 0x00#8 ∧ t.brg.exec = .idle ∧ t.brg.cbuf = [] ∧
        t.seq.rtail = [] ∧ t.seq.porSeen = true ∧ t.seq.n = s.seq.n + 1 ∧
        t.seq.phase =
          (if s.brg.outstanding ∧ s.seq.n + 1 ≠ s.seq.pollMax then
            [.delay s.cfg.tPoll, .pollRead] else []) ++ rest ∧
        runMoves [seqOk, seqOk] s = .next
          (if s.brg.outstanding ∧ s.seq.n + 1 = s.seq.pollMax then raiseError .timeout t else t)

/-- R226: the short check reads status, scans every result byte delivered since the last one, the sentinel
skipped, a short before a no-response, and empties the tail; a failed read raises `TransportError`,
the bridge's tail drained or not. -/
def Obligations.ShortCheck : Prop :=
  ∀ (s : State) (rest : List Micro) (tail : List Byte), s.cfg.Legal →
    s.seq.phase = .shortCheck :: rest →
    s.brg.fault = .none → tail = s.seq.rtail ++ s.brg.resq →
      (∃ t, seqStep .ok s = .next t ∧
        t = { s with
          brg := { s.brg with resq := [] }
          seq := { s.seq with
            phase := rest, lastSf := statusFlags s, rtail := [], vpp := s.vppIn
            healthy := !tail.any fun b => b != 0xA5#8 && (b &&& 0x02#8) != 0#8
            present := (!tail.any fun b => b != 0xA5#8 && (b &&& 0x02#8) != 0#8) &&
              !tail.any fun b => b != 0xA5#8 && (b &&& 0x01#8) != 0#8 }
          trace := .status s.cfg.epStatus s.seq.bulkTimeout :: s.trace }) ∧
      seqStep .lost s = .next (raiseError .transportError
        { s with seq := { s.seq with phase := rest } }) ∧
      ∀ fate, fate = .delivered ∨ (∃ n, fate = .truncated n) →
        seqStep fate s = .next (raiseError .transportError { s with
          brg := { s.brg with resq := [] }
          seq := { s.seq with phase := rest }
          trace := .status s.cfg.epStatus s.seq.bulkTimeout :: s.trace })

/-! ### Entry to recovery and return (60_exceptions.md R334 to R336) -/

/-- R225, R334, R260: an error raised inside a `try` whose handler is the recovery attempt, whatever other
`try` stands whole between, is held while the initialization sequence runs, and answered afterwards;
nothing else changes. A `RESET` whose short check found a short enters recovery with `ShortCircuit`;
otherwise it delays 5 ms, unless the configured speed is overdrive. A lost first or last record of
`STARTPULSE` enters recovery under a configuration that follows R334 there, and is answered at once
under one that follows R233 (that both are admitted is the model's choice, log 18). -/
def Obligations.RecoveryEntry : Prop :=
  (∀ (e : ErrorKind) (s : State) (p rest : List Micro),
    s.seq.phase = p ++ .endRecover :: rest → balanced 0 p = true →
      raiseError e s = { s with seq :=
        { s.seq with phase := initSequence s.cfg ++ .endDrop :: .reraise e :: rest } }) ∧
  (∀ (s : State) (rest : List Micro) (fate : Fate), s.seq.phase = .resetTail :: rest →
    (s.seq.healthy = false →
      seqStep fate s = .next { s with seq := { s.seq with
        phase := initSequence s.cfg ++ .endDrop :: .reraise .shortCircuit :: rest } }) ∧
    (s.seq.healthy = true → s.seq.speed = s.cfg.speeds.overdrive →
      seqStep fate s = .next { s with seq := { s.seq with phase := rest } }) ∧
    (s.seq.healthy = true → s.seq.speed ≠ s.cfg.speeds.overdrive →
      seqStep fate s = .next { s with seq := { s.seq with phase := .delay 5 :: rest } })) ∧
  ∀ (s : State) (spue : Bool) (rest : List Micro) (o : OpName),
    s.seq.phase = pulseMode s.cfg spue ++ rest → balanced 0 rest = true → s.seq.op = some o →
    (s.cfg.readings.pulseModeRecovers = true →
      runMoves [seqOk, .seq .lost] s = .next { s with seq := { s.seq with
        phase := initSequence s.cfg ++ .endDrop :: .reraise .transportError :: rest } }) ∧
    (s.cfg.readings.pulseModeRecovers = false →
      seqStep .lost s = .next { s with seq :=
        { s.seq.atRest with answer := some (.error .transportError o s.seq.lastSf) } })

/-- R229, R335, R336: an error inside the recovery attempt is dropped and starts no other; then the
original error is answered, with the operation and the last status flags, whatever `try` still
stands ahead in the operation. -/
def Obligations.RecoveryDoesNotNest : Prop :=
  (∀ (e e' : ErrorKind) (s : State) (p rest : List Micro),
    s.seq.phase = p ++ .endDrop :: .reraise e :: rest → balanced 0 p = true →
      raiseError e' s = { s with seq := { s.seq with phase := .reraise e :: rest } }) ∧
  ∀ (e : ErrorKind) (o : OpName) (s : State) (rest : List Micro) (fate : Fate),
    s.seq.phase = .reraise e :: rest → balanced 0 rest = true → s.seq.op = some o →
      seqStep fate s = .next { s with seq :=
        { s.seq.atRest with answer := some (.error e o s.seq.lastSf) } }

/-- R228, R70 (column "after init"), R151: from every state of the bridge, a desynchronised, busy, halted
or just powered one too, a prompt initialization sequence leaves the registers of the column, a
healthy and present bus, an empty tail, and the Search State, the configured speed and the WIRE as
they were. -/
def Obligations.InitRepairs : Prop :=
  ∀ (s : State) (rest : List Micro), s.cfg.Legal → s.seq.phase = initSequence s.cfg ++ rest →
    ∃ t, runMoves promptInit s = .next t ∧ t.brg = Brg.initialized s.cfg s.draws ∧
      t.seq.phase = rest ∧ t.seq.healthy = true ∧ t.seq.present = true ∧ t.seq.vpp = s.vppIn ∧
      t.seq.rtail = [] ∧ t.seq.ss = s.seq.ss ∧ t.seq.speed = s.seq.speed ∧
      t.seq.op = s.seq.op ∧ t.wire = s.wire ∧ t.now = s.now

/-- R225, R334, R335: `TOUCHBIT` whose record is lost runs one initialization sequence, which repairs the
bridge whatever state it was in, and answers `TransportError` with the operation and the last status
flags; the record is not sent again and no slot is made. -/
def Obligations.LostBitRecovers : Prop :=
  ∀ (s : State) (b : Bool), s.cfg.Legal → s.seq.handle = .opened → s.seq.busy = false →
    ∃ t evs, runMoves ([.host (.touchbit b.toNat), seqOk, .seq .lost] ++ promptInit ++
        [seqOk, seqOk]) s = .next t ∧
      t.brg = Brg.initialized s.cfg s.draws ∧ t.seq.busy = false ∧ t.seq.op = none ∧
      t.seq.answer = some (.error .transportError .touchbit t.seq.lastSf) ∧
      t.seq.ss = s.seq.ss ∧ t.wire = s.wire ∧ t.trace = evs ++ s.trace ∧
      (∀ r x y, .record r (encode s.cfg (.commBitIo immediate x)) y ∉ evs) ∧
      (∀ x y, .slot x y ∉ evs) ∧ ∀ v, .wireReset v ∉ evs

/-! ### Operations -/

/-- R220, R333: an operation presented while another runs is refused, then one presented on a closed
handle other than `ACQUIRE`, and `ACQUIRE` on an open one (R240); an operand out of range answers
`CallerError`, naming the operation presented (log 35), and changes nothing else; otherwise the
operation starts. Which operands are in range is R132; the two bounds on a request of `CMD` that R132
does not list are the model's (log 19). -/
def Obligations.OperationFrame : Prop :=
  ∀ (op : HostOp) (s : State),
    (s.seq.busy = true → present op s = .refused .operationWhileBusy) ∧
    (s.seq.busy = false → s.seq.handle = .closed → op.name ≠ .acquire →
      present op s = .refused .handleClosed) ∧
    (s.seq.busy = false → s.seq.handle = .opened → op.name = .acquire →
      present op s = .refused .handleOpen) ∧
    (s.seq.busy = false → (s.seq.handle = .opened ↔ op.name ≠ .acquire) →
      (operandsOk s.cfg op = false →
        present op s = .next { s with seq :=
          { s.seq with answer := some (.error .callerError op.name s.seq.lastSf) } }) ∧
      (operandsOk s.cfg op = true →
        ∃ t, present op s = .next t ∧ t.seq.busy = true ∧ t.seq.op = some op.name ∧
          t.seq.phase = program s.cfg op s.seq.speed ∧ t.brg = s.brg ∧ t.wire = s.wire ∧
          t.trace = s.trace))

/-- R262, R173, R225: `TOUCHBIT` on a bridge that completes at once makes one slot and answers its level,
leaves `RBUF` empty and keeps the result byte for the next short check. -/
def Obligations.TouchbitAnswers : Prop :=
  ∀ (s : State) (b r : Bool) (u : State), s.cfg.Legal → s.seq.handle = .opened → s.seq.busy = false →
    s.brg.ready = true → s.brg.halt = false → s.brg.epof = false → s.brg.rbuf = [] →
      wireSlot b s = (r, u) →
      ∃ t, runMoves [.host (.touchbit b.toNat), seqOk, seqOk, .brg, .brg, seqOk, seqOk, seqOk, seqOk,
          seqOk] s = .next t ∧
        t.seq.answer = some (.ok (.bit r)) ∧ t.seq.busy = false ∧ t.brg.rbuf = [] ∧
        t.brg.resq = [] ∧ t.seq.rtail = s.seq.rtail ++ s.brg.resq ++ [0x00#8] ∧
        t.wire = u.wire ∧ t.brg.exec = .idle

/-- R232: the duration code of a request of up to 4079 ms is `1 + (ms >> 4)`, never 0, and means a pulse
that outlasts the request by 1 to 16 ms; a longer request is a `CallerError`; 750 ms is code 47. -/
def Obligations.DurationCode : Prop :=
  (∀ ms, ms ≤ 4079 → (durationCode ms).toNat = 1 + ms / 16 ∧ durationCode ms ≠ 0x00#8 ∧
    ms + 1 ≤ 16 * (durationCode ms).toNat ∧ 16 * (durationCode ms).toNat ≤ ms + 16) ∧
  (∀ (ms : Nat) (s : State), 4079 < ms → s.seq.handle = .opened → s.seq.busy = false →
    ∃ o, applyMove (.host (.startpulse ms)) s = .next { s with seq :=
      { s.seq with answer := some (.error .callerError o s.seq.lastSf) } }) ∧
  durationCode 750 = 47#8

/-- R243: `SETSPEED` sends one record, writes the bridge's speed register and then `SEQ.speed`; a reserved
code, or a number that is no byte, is a `CallerError`; when the transfer fails, seen by the bridge or
not, `SEQ.speed` is unchanged and `TransportError` is answered. -/
def Obligations.SetSpeed : Prop :=
  (∀ (s : State) (v : Byte) (fate : Fate), s.cfg.Legal → s.seq.handle = .opened →
    s.seq.busy = false → legalSpeed s.cfg v = true →
    (s.brg.ready = true →
      runMoves [.host (.setspeed v.toNat), seqOk, .seq fate, .seq fate] s = .next { s with
        brg := { s.brg with speed := v }
        seq := { s.seq.atRest with speed := v, answer := some (.ok .unit) }
        trace := .record s.cfg.requestType
          (cmdWord s.cfg.catMode s.cfg.mode.busSpeed (zext16 v)) s.seq.ctlTimeout :: s.trace }) ∧
    runMoves [.host (.setspeed v.toNat), .seq .lost] s = .next { s with seq :=
      { s.seq.atRest with answer := some (.error .transportError .setspeed s.seq.lastSf) } } ∧
    (s.brg.ready = true →
      runMoves [.host (.setspeed v.toNat), .seq .delivered] s = .next { s with
        brg := { s.brg with speed := v }
        seq := { s.seq.atRest with
          answer := some (.error .transportError .setspeed s.seq.lastSf) }
        trace := .record s.cfg.requestType
          (cmdWord s.cfg.catMode s.cfg.mode.busSpeed (zext16 v)) s.seq.ctlTimeout :: s.trace })) ∧
  ∀ (s : State) (n : Nat), s.seq.handle = .opened → s.seq.busy = false →
    255 < n ∨ legalSpeed s.cfg (BitVec.ofNat 8 n) = false →
      ∃ o, applyMove (.host (.setspeed n)) s = .next { s with seq :=
        { s.seq with answer := some (.error .callerError o s.seq.lastSf) } }

/-- R241: teardown closes the handle whatever the fate of `Close`, sends no record and leaves the
bridge as it is. -/
def Obligations.Release : Prop :=
  ∀ (s : State) (fate fate' : Fate), s.seq.handle = .opened → s.seq.busy = false →
    runMoves [.host .release, .seq fate, .seq fate'] s = .next { s with
      seq := { s.seq.atRest with handle := .closed, answer := some (.ok .unit) }
      trace := .close :: s.trace }

/-! ### The search (45_search.md) -/

/-- R292, R299: `SRCH_RESET` makes the Search State fresh and sends nothing; once the last device
was found every `SRCH_NEXT` ends with `EXHAUSTED` and sends nothing, the Search State as it was, so
the next one does the same, and a `SEARCH` yields the empty sequence. -/
def Obligations.SearchResetAndEnd : Prop :=
  ∀ (s : State) (mode : SearchMode) (fate fate' : Fate), s.seq.handle = .opened →
    s.seq.busy = false →
      runMoves [.host .srchReset, .seq fate, .seq fate'] s = .next { s with seq :=
        { s.seq.atRest with
          ss := { lastDiscrepancy := none, lastDeviceFlag := false, currentRom := 0#64 }
          answer := some (.ok .unit) } } ∧
      (s.seq.ss.lastDeviceFlag = true →
        runMoves [.host (.srchNext (some mode)), .seq fate] s = .next { s with seq :=
          { s.seq.atRest with answer := some (.ok (.srchEnd .exhausted)) } } ∧
        runMoves [.host (.search (some mode)), .seq fate] s = .next { s with seq :=
          { s.seq.atRest with answer := some (.ok (.roms [] .exhausted)) } })

/-- R294: the direction proposed at position `i`, with the sentinel below every position. -/
def Obligations.DirectionProposed : Prop :=
  ∀ (i : Nat) (ss : SearchState),
    (ss.lastDiscrepancy = some i → propose i ss = true) ∧
    ((ss.lastDiscrepancy = none ∨ ∃ d, ss.lastDiscrepancy = some d ∧ d < i) →
      propose i ss = false) ∧
    (∀ d, ss.lastDiscrepancy = some d → i < d →
      propose i ss = (ss.currentRom.byte (i / 8)).getLsbD (i % 8))

/-- R290, R295: nothing changes the Search State but `SRCH_RESET` and the commit at the end of a complete
pass. -/
def Obligations.SearchStateKept : Prop :=
  ∀ s t : State, step s = .next t → t.seq.ss ≠ s.seq.ss →
    ∃ rest, s.seq.phase = .srchReset :: rest ∨ ∃ mode, s.seq.phase = .srchCommit mode :: rest

/-- R295, R297, R298, R301: a complete pass with a valid identifier commits it, with the last zero
branch as the new discrepancy, the last device marked when no zero branch was recorded; `SRCH_NEXT`
answers it, `SEARCH` adds it to its list and begins the next pass. An invalid identifier commits
nothing and ends the operation with `INVALID_ROM`, a `SEARCH` with the identifiers it has. -/
def Obligations.PassCommits : Prop :=
  ∀ (s : State) (mode : SearchMode) (rest : List Micro) (fate : Fate) (ss : SearchState),
    s.seq.phase = .srchCommit mode :: rest →
      ss = { currentRom := s.seq.workRom, lastDiscrepancy := s.seq.lastZero
             lastDeviceFlag := s.seq.ss.lastDeviceFlag || s.seq.lastZero.isNone } →
      (s.seq.workRom.byte 0 ≠ 0x00#8 ∧
          crc8 [s.seq.workRom.byte 0, s.seq.workRom.byte 1, s.seq.workRom.byte 2,
            s.seq.workRom.byte 3, s.seq.workRom.byte 4, s.seq.workRom.byte 5,
            s.seq.workRom.byte 6] = s.seq.workRom.byte 7 →
        (s.seq.op = some .srchNext →
          seqStep fate s = .next { s with seq :=
            { s.seq.atRest with ss := ss, answer := some (.ok (.rom s.seq.workRom)) } }) ∧
        (s.seq.op = some .search →
          seqStep fate s = .next { s with seq :=
            { s.seq with
              phase := .srchBegin mode :: rest
              ss := ss
              found := s.seq.found ++ [s.seq.workRom] } })) ∧
      (s.seq.workRom.byte 0 = 0x00#8 ∨
          crc8 [s.seq.workRom.byte 0, s.seq.workRom.byte 1, s.seq.workRom.byte 2,
            s.seq.workRom.byte 3, s.seq.workRom.byte 4, s.seq.workRom.byte 5,
            s.seq.workRom.byte 6] ≠ s.seq.workRom.byte 7 →
        (s.seq.op = some .srchNext →
          seqStep fate s = .next { s with seq :=
            { s.seq.atRest with
              answer := some (.ok (.srchEnd (.invalidRom s.seq.workRom))) } }) ∧
        (s.seq.op = some .search →
          seqStep fate s = .next { s with seq :=
            { s.seq.atRest with
              answer := some (.ok (.roms s.seq.found (.invalidRom s.seq.workRom))) } }))

/-- R275, R296: after the second probe the triplet aborts without a third slot when both probes are 1,
takes the caller's direction when both are 0, and otherwise the forced one, the id bit. -/
def Obligations.TripletDecides : Prop :=
  ∀ (s : State) (d comp : Bool) (rest : List Micro) (fate : Fate),
    s.seq.phase = .tripletComp d :: rest →
      s.seq.bytes = [if comp then 0x01#8 else 0x00#8] →
      (s.seq.idBit = true → comp = true → ∃ t, seqStep fate s = .next t ∧ t.seq.taken = none ∧
        t.seq.phase = rest ∧ t.seq.compBit = comp ∧ t.brg = s.brg ∧ t.wire = s.wire) ∧
      (¬(s.seq.idBit = true ∧ comp = true) → ∃ t b, seqStep fate s = .next t ∧
        b = (if s.seq.idBit = false ∧ comp = false then d else s.seq.idBit) ∧
        t.seq.taken = some b ∧ t.seq.compBit = comp ∧
        t.seq.phase = touchBit s.cfg b ++ .tripletDone :: rest ∧ t.brg = s.brg ∧ t.wire = s.wire)

/-- R305: the computed values of `crc8`, and the law that the checksum over the eight bytes of a valid
identifier is 0. -/
def Obligations.CrcFacts : Prop :=
  (crc8 [] = 0x00#8 ∧ crc8 [0x01#8] = 0x5E#8 ∧ crc8 [0x02#8] = 0xBC#8 ∧ crc8 [0x08#8] = 0xC2#8 ∧
    crc8 [0xF0#8] = 0x74#8 ∧
    crc8 [0x00#8, 0x00#8, 0x00#8, 0x00#8, 0x00#8, 0x00#8, 0x00#8] = 0x00#8 ∧
    crc8 [0x01#8, 0x00#8, 0x00#8, 0x00#8, 0x00#8, 0x00#8, 0x00#8] = 0x3D#8 ∧
    crc8 [0xFF#8, 0xFF#8, 0xFF#8, 0xFF#8, 0xFF#8, 0xFF#8, 0xFF#8] = 0x14#8 ∧
    crc8 [0x01#8, 0xAB#8, 0xCD#8, 0xEF#8, 0x01#8, 0x23#8, 0x45#8] = 0xC2#8 ∧
    crc8 [0x02#8, 0xAB#8, 0xCD#8, 0xEF#8, 0x01#8, 0x23#8, 0x45#8] = 0x85#8 ∧
    crc8 [0x28#8, 0xFF#8, 0x4A#8, 0x1B#8, 0x00#8, 0x16#8, 0x03#8] = 0x14#8 ∧
    crc8 [0x10#8, 0x50#8, 0xA9#8, 0x0A#8, 0x02#8, 0x08#8, 0x00#8] = 0x37#8 ∧
    crc8 [0x28#8, 0x01#8, 0x00#8, 0x00#8, 0x00#8, 0x00#8, 0x00#8] = 0x29#8 ∧
    crc8 [0x02#8, 0x1C#8, 0xB8#8, 0x01#8, 0x00#8, 0x00#8, 0x00#8] = 0xA2#8) ∧
  ∀ rom : Rom, rom.valid = true → crc8 rom.bytes = 0x00#8

/-- R311, R310: on a reference bus that is not shorted, with no slave still waiting for its command byte
and the searching ones all at the first probe of position `i`, the two probes answer the AND of
their bits and of the complements; the third slot keeps in the search exactly the slaves whose bit is
the direction written, but after the last position none; and the direction a triplet takes is the
bit of at least one of them. At model start every slave is as after a reset cycle (R362). -/
def Obligations.ProbesOfReferenceBus : Prop :=
  (∀ (bus : RefBus) (i : Nat) (found : List Slave) (p q : Bool × RefBus),
    bus.shorted = false → (∀ v ∈ bus.slaves, v.st ≠ .cmd) → i ≤ 63 →
    found = bus.slaves.filter Slave.searching →
    (∀ v ∈ found, v.i = i ∧ v.ph = 0) → p = bus.slot true → q = p.2.slot true →
      p.1 = found.all (fun v => v.rom.bit i) ∧ q.1 = found.all (fun v => !v.rom.bit i) ∧
        (∀ d, (q.2.slot d).2.slaves.filter Slave.searching =
          if i = 63 then []
          else (found.filter fun v => v.rom.bit i == d).map fun v => { v with i := i + 1 }) ∧
        ∀ d t, found ≠ [] → directionTaken p.1 q.1 d = some t →
          ∃ v ∈ found, v.rom.bit i = t) ∧
  ∀ (devices : List (Rom × Bool)) (shorted : Bool) (c : Config),
    (RefBus.start devices shorted).reset.2 = RefBus.start devices shorted ∧
      (State.startOn c (RefBus.start devices shorted)).wire =
        .reference (RefBus.start devices shorted) ∧
      (RefBus.start devices shorted).slaves.map (fun v => (v.rom, v.alarm)) = devices

/-! ### Events and silence -/

/-- R39, R332: a power-on gives the bridge its power-on registers, `EPOF` set, whatever it was doing, and
leaves the sequencer and the WIRE alone. A `STARTPULSE` whose last poll meets one completes without
error on a bridge at device-reset values, all enables 0; under a configuration that follows R332 its
last record is left out, so that they stay so, under one that follows R233 it is still ahead (that both
are admitted is the model's choice, log 37); with no `POR` seen it is sent under both.
`DEVICE_DETECT` appends the sentinel and nothing else.
R330: an injected result byte joins the queue, and changes neither scan of the short check. -/
def Obligations.EnvironmentEvents : Prop :=
  (∀ s : State, ∃ t, applyMove .por s = .next t ∧ t.cfg = s.cfg ∧ t.brg.en = 0x00#8 ∧
    t.brg.speed = s.cfg.speeds.regular ∧ t.brg.epof = true ∧ t.brg.halt = false ∧
    t.brg.fault = .none ∧ t.brg.exec = .idle ∧ t.brg.cur = none ∧ t.brg.k = 0 ∧ t.brg.m = 0 ∧
    t.brg.pulse = .off ∧ t.brg.curcmd = 0x0000#16 ∧ t.brg.cbuf = [] ∧ t.brg.wbuf = [] ∧
    t.brg.rbuf = [] ∧ t.brg.resq = [] ∧ t.seq = s.seq ∧ t.wire = s.wire ∧ t.now = s.now ∧
    t.trace = s.trace ∧
    (s.cfg.Legal → recordEpof s.cfg (statusRecord t) = true ∧
      recordIdle s.cfg (statusRecord t) = true)) ∧
  (∀ (s : State) (rest : List Micro), s.cfg.Legal →
    s.seq.phase = pollIdle ++ .endRecover :: .pulseEnd :: rest →
      ∃ t, runMoves (.por :: List.replicate 5 seqOk) s = .next t ∧ t.brg.en = 0x00#8 ∧
        t.brg.speed = s.cfg.speeds.regular ∧ t.brg.epof = false ∧ t.brg.exec = .idle ∧
        t.brg.pulse = .off ∧ t.seq.rtail = [] ∧ t.seq.answer = s.seq.answer ∧ t.wire = s.wire ∧
        t.seq.phase =
          (if s.cfg.readings.porEndsPulse then [] else pulseMode s.cfg false) ++ rest) ∧
  (∀ (s : State) (rest : List Micro) (fate : Fate), s.seq.phase = .pulseEnd :: rest →
    s.seq.porSeen = false →
      seqStep fate s = .next { s with seq :=
        { s.seq with phase := pulseMode s.cfg false ++ rest } }) ∧
  (∀ s : State, applyMove .deviceDetect s =
    .next { s with brg := { s.brg with resq := s.brg.resq ++ [0xA5#8] } }) ∧
  ∀ (s : State) (cmp crc rdp eos : Bool), ∃ r,
    applyMove (.inject cmp crc rdp eos) s =
      .next { s with brg := { s.brg with resq := s.brg.resq ++ [r] } } ∧
    r.getLsbD 4 = cmp ∧ r.getLsbD 5 = crc ∧ r.getLsbD 6 = rdp ∧ r.getLsbD 7 = eos ∧
    r &&& 0x0F#8 = 0#8 ∧
    ∀ before after : List Byte,
      tailShort (before ++ r :: after) = tailShort (before ++ after) ∧
        tailNoResponse (before ++ r :: after) = tailNoResponse (before ++ after)

/-- R71, R209: under a configuration whose status bytes lie apart, two machines that differ only in
the slew and timing registers, and in what a direct status read last showed, make the same step: the
same outcome, and next states that again differ only there. No result of any operation depends on
those registers. -/
def Obligations.TimingIsSilent : Prop :=
  ∀ s s' : State, s.cfg.Legal → s.blind = s'.blind → blindOut (step s) = blindOut (step s')
end

