-- ==== Sys2Proof/Laws/State.lean ====
section
/-! SUPPORT. What every update of the state does to every field: one lemma each, so that no later proof
unfolds a record update. -/

namespace Sys2Proof.Laws

open Sys2Proof.Machine

/-! ### Observed events -/

@[simp] theorem log_cfg (ev : TraceEvent) (s : State) : (s.log ev).cfg = s.cfg := rfl
@[simp] theorem log_seq (ev : TraceEvent) (s : State) : (s.log ev).seq = s.seq := rfl
@[simp] theorem log_brg (ev : TraceEvent) (s : State) : (s.log ev).brg = s.brg := rfl
@[simp] theorem log_now (ev : TraceEvent) (s : State) : (s.log ev).now = s.now := rfl
@[simp] theorem log_vppIn (ev : TraceEvent) (s : State) : (s.log ev).vppIn = s.vppIn := rfl
@[simp] theorem log_pmodIn (ev : TraceEvent) (s : State) : (s.log ev).pmodIn = s.pmodIn := rfl
@[simp] theorem log_wire (ev : TraceEvent) (s : State) : (s.log ev).wire = s.wire := rfl
@[simp] theorem log_agenda (ev : TraceEvent) (s : State) : (s.log ev).agenda = s.agenda := rfl
@[simp] theorem log_draws (ev : TraceEvent) (s : State) : (s.log ev).draws = s.draws := rfl
@[simp] theorem log_lastIn (ev : TraceEvent) (s : State) : (s.log ev).lastIn = s.lastIn := rfl
@[simp] theorem log_trace (ev : TraceEvent) (s : State) : (s.log ev).trace = ev :: s.trace := rfl

@[simp] theorem logControl_cfg (w : CmdWord) (s : State) : (s.logControl w).cfg = s.cfg := rfl
@[simp] theorem logControl_seq (w : CmdWord) (s : State) : (s.logControl w).seq = s.seq := rfl
@[simp] theorem logControl_brg (w : CmdWord) (s : State) : (s.logControl w).brg = s.brg := rfl
@[simp] theorem logControl_now (w : CmdWord) (s : State) : (s.logControl w).now = s.now := rfl
@[simp] theorem logControl_vppIn (w : CmdWord) (s : State) : (s.logControl w).vppIn = s.vppIn := rfl
@[simp] theorem logControl_pmodIn (w : CmdWord) (s : State) :
    (s.logControl w).pmodIn = s.pmodIn := rfl
@[simp] theorem logControl_wire (w : CmdWord) (s : State) : (s.logControl w).wire = s.wire := rfl
@[simp] theorem logControl_agenda (w : CmdWord) (s : State) :
    (s.logControl w).agenda = s.agenda := rfl
@[simp] theorem logControl_draws (w : CmdWord) (s : State) : (s.logControl w).draws = s.draws := rfl
@[simp] theorem logControl_lastIn (w : CmdWord) (s : State) :
    (s.logControl w).lastIn = s.lastIn := rfl
@[simp] theorem logControl_trace (w : CmdWord) (s : State) :
    (s.logControl w).trace = .record s.cfg.requestType w s.seq.ctlTimeout :: s.trace := rfl

@[simp] theorem logStatus_cfg (s : State) : (s.logStatus).cfg = s.cfg := rfl
@[simp] theorem logStatus_seq (s : State) : (s.logStatus).seq = s.seq := rfl
@[simp] theorem logStatus_brg (s : State) : (s.logStatus).brg = s.brg := rfl
@[simp] theorem logStatus_now (s : State) : (s.logStatus).now = s.now := rfl
@[simp] theorem logStatus_vppIn (s : State) : (s.logStatus).vppIn = s.vppIn := rfl
@[simp] theorem logStatus_pmodIn (s : State) : (s.logStatus).pmodIn = s.pmodIn := rfl
@[simp] theorem logStatus_wire (s : State) : (s.logStatus).wire = s.wire := rfl
@[simp] theorem logStatus_agenda (s : State) : (s.logStatus).agenda = s.agenda := rfl
@[simp] theorem logStatus_draws (s : State) : (s.logStatus).draws = s.draws := rfl
@[simp] theorem logStatus_lastIn (s : State) : (s.logStatus).lastIn = s.lastIn := rfl
@[simp] theorem logStatus_trace (s : State) :
    (s.logStatus).trace = .status s.cfg.epStatus s.seq.bulkTimeout :: s.trace := rfl

@[simp] theorem logOut_cfg (bytes : List Byte) (s : State) : (s.logOut bytes).cfg = s.cfg := rfl
@[simp] theorem logOut_seq (bytes : List Byte) (s : State) : (s.logOut bytes).seq = s.seq := rfl
@[simp] theorem logOut_brg (bytes : List Byte) (s : State) : (s.logOut bytes).brg = s.brg := rfl
@[simp] theorem logOut_now (bytes : List Byte) (s : State) : (s.logOut bytes).now = s.now := rfl
@[simp] theorem logOut_vppIn (bytes : List Byte) (s : State) :
    (s.logOut bytes).vppIn = s.vppIn := rfl
@[simp] theorem logOut_pmodIn (bytes : List Byte) (s : State) :
    (s.logOut bytes).pmodIn = s.pmodIn := rfl
@[simp] theorem logOut_wire (bytes : List Byte) (s : State) : (s.logOut bytes).wire = s.wire := rfl
@[simp] theorem logOut_agenda (bytes : List Byte) (s : State) :
    (s.logOut bytes).agenda = s.agenda := rfl
@[simp] theorem logOut_draws (bytes : List Byte) (s : State) :
    (s.logOut bytes).draws = s.draws := rfl
@[simp] theorem logOut_lastIn (bytes : List Byte) (s : State) :
    (s.logOut bytes).lastIn = s.lastIn := rfl
@[simp] theorem logOut_trace (bytes : List Byte) (s : State) :
    (s.logOut bytes).trace = .dataOut s.cfg.epDataOut bytes s.seq.bulkTimeout :: s.trace := rfl

@[simp] theorem logIn_cfg (bytes : List Byte) (s : State) : (s.logIn bytes).cfg = s.cfg := rfl
@[simp] theorem logIn_seq (bytes : List Byte) (s : State) : (s.logIn bytes).seq = s.seq := rfl
@[simp] theorem logIn_brg (bytes : List Byte) (s : State) : (s.logIn bytes).brg = s.brg := rfl
@[simp] theorem logIn_now (bytes : List Byte) (s : State) : (s.logIn bytes).now = s.now := rfl
@[simp] theorem logIn_vppIn (bytes : List Byte) (s : State) : (s.logIn bytes).vppIn = s.vppIn := rfl
@[simp] theorem logIn_pmodIn (bytes : List Byte) (s : State) :
    (s.logIn bytes).pmodIn = s.pmodIn := rfl
@[simp] theorem logIn_wire (bytes : List Byte) (s : State) : (s.logIn bytes).wire = s.wire := rfl
@[simp] theorem logIn_agenda (bytes : List Byte) (s : State) :
    (s.logIn bytes).agenda = s.agenda := rfl
@[simp] theorem logIn_draws (bytes : List Byte) (s : State) : (s.logIn bytes).draws = s.draws := rfl
@[simp] theorem logIn_lastIn (bytes : List Byte) (s : State) :
    (s.logIn bytes).lastIn = s.lastIn := rfl
@[simp] theorem logIn_trace (bytes : List Byte) (s : State) :
    (s.logIn bytes).trace = .dataIn s.cfg.epDataIn bytes s.seq.bulkTimeout :: s.trace := rfl

/-! ### The bridge engine -/

@[simp] theorem setDesync_cfg (s : State) : (setDesync s).cfg = s.cfg := rfl
@[simp] theorem setDesync_seq (s : State) : (setDesync s).seq = s.seq := rfl
@[simp] theorem setDesync_en (s : State) : (setDesync s).brg.en = s.brg.en := rfl
@[simp] theorem setDesync_speed (s : State) : (setDesync s).brg.speed = s.brg.speed := rfl
@[simp] theorem setDesync_spud (s : State) : (setDesync s).brg.spud = s.brg.spud := rfl
@[simp] theorem setDesync_ppd (s : State) : (setDesync s).brg.ppd = s.brg.ppd := rfl
@[simp] theorem setDesync_slew (s : State) : (setDesync s).brg.slew = s.brg.slew := rfl
@[simp] theorem setDesync_tp0 (s : State) : (setDesync s).brg.tp0 = s.brg.tp0 := rfl
@[simp] theorem setDesync_tp1 (s : State) : (setDesync s).brg.tp1 = s.brg.tp1 := rfl
@[simp] theorem setDesync_halt (s : State) : (setDesync s).brg.halt = s.brg.halt := rfl
@[simp] theorem setDesync_epof (s : State) : (setDesync s).brg.epof = s.brg.epof := rfl
@[simp] theorem setDesync_curcmd (s : State) : (setDesync s).brg.curcmd = s.brg.curcmd := rfl
@[simp] theorem setDesync_cbuf (s : State) : (setDesync s).brg.cbuf = s.brg.cbuf := rfl
@[simp] theorem setDesync_wbuf (s : State) : (setDesync s).brg.wbuf = s.brg.wbuf := rfl
@[simp] theorem setDesync_rbuf (s : State) : (setDesync s).brg.rbuf = s.brg.rbuf := rfl
@[simp] theorem setDesync_resq (s : State) : (setDesync s).brg.resq = s.brg.resq := rfl
@[simp] theorem setDesync_fault (s : State) : (setDesync s).brg.fault = .desync := rfl
@[simp] theorem setDesync_exec (s : State) : (setDesync s).brg.exec = s.brg.exec := rfl
@[simp] theorem setDesync_cur (s : State) : (setDesync s).brg.cur = s.brg.cur := rfl
@[simp] theorem setDesync_k (s : State) : (setDesync s).brg.k = s.brg.k := rfl
@[simp] theorem setDesync_m (s : State) : (setDesync s).brg.m = s.brg.m := rfl
@[simp] theorem setDesync_pulse (s : State) : (setDesync s).brg.pulse = s.brg.pulse := rfl
@[simp] theorem setDesync_stage (s : State) : (setDesync s).brg.stage = s.brg.stage := rfl
@[simp] theorem setDesync_x (s : State) : (setDesync s).brg.x = s.brg.x := rfl
@[simp] theorem setDesync_e (s : State) : (setDesync s).brg.e = s.brg.e := rfl
@[simp] theorem setDesync_res (s : State) : (setDesync s).brg.res = s.brg.res := rfl
@[simp] theorem setDesync_now (s : State) : (setDesync s).now = s.now := rfl
@[simp] theorem setDesync_vppIn (s : State) : (setDesync s).vppIn = s.vppIn := rfl
@[simp] theorem setDesync_pmodIn (s : State) : (setDesync s).pmodIn = s.pmodIn := rfl
@[simp] theorem setDesync_wire (s : State) : (setDesync s).wire = s.wire := rfl
@[simp] theorem setDesync_agenda (s : State) : (setDesync s).agenda = s.agenda := rfl
@[simp] theorem setDesync_draws (s : State) : (setDesync s).draws = s.draws := rfl
@[simp] theorem setDesync_lastIn (s : State) : (setDesync s).lastIn = s.lastIn := rfl
@[simp] theorem setDesync_trace (s : State) : (setDesync s).trace = s.trace := rfl

@[simp] theorem startCommand_cfg (c : Instr) (s : State) : (startCommand c s).cfg = s.cfg := rfl
@[simp] theorem startCommand_seq (c : Instr) (s : State) : (startCommand c s).seq = s.seq := rfl
@[simp] theorem startCommand_en (c : Instr) (s : State) :
    (startCommand c s).brg.en = s.brg.en := rfl
@[simp] theorem startCommand_speed (c : Instr) (s : State) :
    (startCommand c s).brg.speed = s.brg.speed := rfl
@[simp] theorem startCommand_spud (c : Instr) (s : State) :
    (startCommand c s).brg.spud = s.brg.spud := rfl
@[simp] theorem startCommand_ppd (c : Instr) (s : State) :
    (startCommand c s).brg.ppd = s.brg.ppd := rfl
@[simp] theorem startCommand_slew (c : Instr) (s : State) :
    (startCommand c s).brg.slew = s.brg.slew := rfl
@[simp] theorem startCommand_tp0 (c : Instr) (s : State) :
    (startCommand c s).brg.tp0 = s.brg.tp0 := rfl
@[simp] theorem startCommand_tp1 (c : Instr) (s : State) :
    (startCommand c s).brg.tp1 = s.brg.tp1 := rfl
@[simp] theorem startCommand_halt (c : Instr) (s : State) :
    (startCommand c s).brg.halt = s.brg.halt := rfl
@[simp] theorem startCommand_epof (c : Instr) (s : State) :
    (startCommand c s).brg.epof = s.brg.epof := rfl
@[simp] theorem startCommand_curcmd (c : Instr) (s : State) :
    (startCommand c s).brg.curcmd = c.value s.cfg := rfl
@[simp] theorem startCommand_cbuf (c : Instr) (s : State) :
    (startCommand c s).brg.cbuf = s.brg.cbuf := rfl
@[simp] theorem startCommand_wbuf (c : Instr) (s : State) :
    (startCommand c s).brg.wbuf = s.brg.wbuf := rfl
@[simp] theorem startCommand_rbuf (c : Instr) (s : State) :
    (startCommand c s).brg.rbuf = s.brg.rbuf := rfl
@[simp] theorem startCommand_resq (c : Instr) (s : State) :
    (startCommand c s).brg.resq = s.brg.resq := rfl
@[simp] theorem startCommand_fault (c : Instr) (s : State) :
    (startCommand c s).brg.fault = s.brg.fault := rfl
@[simp] theorem startCommand_exec (c : Instr) (s : State) :
    (startCommand c s).brg.exec = .busy := rfl
@[simp] theorem startCommand_cur (c : Instr) (s : State) :
    (startCommand c s).brg.cur = some c := rfl
@[simp] theorem startCommand_k (c : Instr) (s : State) : (startCommand c s).brg.k = 0 := rfl
@[simp] theorem startCommand_m (c : Instr) (s : State) : (startCommand c s).brg.m = 0 := rfl
@[simp] theorem startCommand_pulse (c : Instr) (s : State) :
    (startCommand c s).brg.pulse = s.brg.pulse := rfl
@[simp] theorem startCommand_stage (c : Instr) (s : State) :
    (startCommand c s).brg.stage = .body := rfl
@[simp] theorem startCommand_x (c : Instr) (s : State) : (startCommand c s).brg.x = 0#8 := rfl
@[simp] theorem startCommand_e (c : Instr) (s : State) : (startCommand c s).brg.e = 0#8 := rfl
@[simp] theorem startCommand_res (c : Instr) (s : State) : (startCommand c s).brg.res = 0#8 := rfl
@[simp] theorem startCommand_now (c : Instr) (s : State) : (startCommand c s).now = s.now := rfl
@[simp] theorem startCommand_vppIn (c : Instr) (s : State) :
    (startCommand c s).vppIn = s.vppIn := rfl
@[simp] theorem startCommand_pmodIn (c : Instr) (s : State) :
    (startCommand c s).pmodIn = s.pmodIn := rfl
@[simp] theorem startCommand_wire (c : Instr) (s : State) : (startCommand c s).wire = s.wire := rfl
@[simp] theorem startCommand_agenda (c : Instr) (s : State) :
    (startCommand c s).agenda = s.agenda := rfl
@[simp] theorem startCommand_draws (c : Instr) (s : State) :
    (startCommand c s).draws = s.draws := rfl
@[simp] theorem startCommand_lastIn (c : Instr) (s : State) :
    (startCommand c s).lastIn = s.lastIn := rfl
@[simp] theorem startCommand_trace (c : Instr) (s : State) :
    (startCommand c s).trace = s.trace := rfl

@[simp] theorem completeCommand_cfg (r : Byte) (s : State) :
    (completeCommand r s).cfg = s.cfg := rfl
@[simp] theorem completeCommand_seq (r : Byte) (s : State) :
    (completeCommand r s).seq = s.seq := rfl
@[simp] theorem completeCommand_en (r : Byte) (s : State) :
    (completeCommand r s).brg.en = s.brg.en := rfl
@[simp] theorem completeCommand_speed (r : Byte) (s : State) :
    (completeCommand r s).brg.speed = s.brg.speed := rfl
@[simp] theorem completeCommand_spud (r : Byte) (s : State) :
    (completeCommand r s).brg.spud = s.brg.spud := rfl
@[simp] theorem completeCommand_ppd (r : Byte) (s : State) :
    (completeCommand r s).brg.ppd = s.brg.ppd := rfl
@[simp] theorem completeCommand_slew (r : Byte) (s : State) :
    (completeCommand r s).brg.slew = s.brg.slew := rfl
@[simp] theorem completeCommand_tp0 (r : Byte) (s : State) :
    (completeCommand r s).brg.tp0 = s.brg.tp0 := rfl
@[simp] theorem completeCommand_tp1 (r : Byte) (s : State) :
    (completeCommand r s).brg.tp1 = s.brg.tp1 := rfl
@[simp] theorem completeCommand_halt (r : Byte) (s : State) :
    (completeCommand r s).brg.halt = s.brg.halt := rfl
@[simp] theorem completeCommand_epof (r : Byte) (s : State) :
    (completeCommand r s).brg.epof = s.brg.epof := rfl
@[simp] theorem completeCommand_curcmd (r : Byte) (s : State) :
    (completeCommand r s).brg.curcmd = s.brg.curcmd := rfl
@[simp] theorem completeCommand_cbuf (r : Byte) (s : State) :
    (completeCommand r s).brg.cbuf = s.brg.cbuf := rfl
@[simp] theorem completeCommand_wbuf (r : Byte) (s : State) :
    (completeCommand r s).brg.wbuf = s.brg.wbuf := rfl
@[simp] theorem completeCommand_rbuf (r : Byte) (s : State) :
    (completeCommand r s).brg.rbuf = s.brg.rbuf := rfl
@[simp] theorem completeCommand_resq (r : Byte) (s : State) :
    (completeCommand r s).brg.resq = s.brg.resq ++ [r] := rfl
@[simp] theorem completeCommand_fault (r : Byte) (s : State) :
    (completeCommand r s).brg.fault = s.brg.fault := rfl
@[simp] theorem completeCommand_exec (r : Byte) (s : State) :
    (completeCommand r s).brg.exec = .idle := rfl
@[simp] theorem completeCommand_cur (r : Byte) (s : State) :
    (completeCommand r s).brg.cur = none := rfl
@[simp] theorem completeCommand_k (r : Byte) (s : State) : (completeCommand r s).brg.k = 0 := rfl
@[simp] theorem completeCommand_m (r : Byte) (s : State) : (completeCommand r s).brg.m = 0 := rfl
@[simp] theorem completeCommand_pulse (r : Byte) (s : State) :
    (completeCommand r s).brg.pulse = s.brg.pulse := rfl
@[simp] theorem completeCommand_stage (r : Byte) (s : State) :
    (completeCommand r s).brg.stage = .body := rfl
@[simp] theorem completeCommand_x (r : Byte) (s : State) : (completeCommand r s).brg.x = 0#8 := rfl
@[simp] theorem completeCommand_e (r : Byte) (s : State) : (completeCommand r s).brg.e = 0#8 := rfl
@[simp] theorem completeCommand_res (r : Byte) (s : State) :
    (completeCommand r s).brg.res = 0#8 := rfl
@[simp] theorem completeCommand_now (r : Byte) (s : State) :
    (completeCommand r s).now = s.now := rfl
@[simp] theorem completeCommand_vppIn (r : Byte) (s : State) :
    (completeCommand r s).vppIn = s.vppIn := rfl
@[simp] theorem completeCommand_pmodIn (r : Byte) (s : State) :
    (completeCommand r s).pmodIn = s.pmodIn := rfl
@[simp] theorem completeCommand_wire (r : Byte) (s : State) :
    (completeCommand r s).wire = s.wire := rfl
@[simp] theorem completeCommand_agenda (r : Byte) (s : State) :
    (completeCommand r s).agenda = s.agenda := rfl
@[simp] theorem completeCommand_draws (r : Byte) (s : State) :
    (completeCommand r s).draws = s.draws := rfl
@[simp] theorem completeCommand_lastIn (r : Byte) (s : State) :
    (completeCommand r s).lastIn = s.lastIn := rfl
@[simp] theorem completeCommand_trace (r : Byte) (s : State) :
    (completeCommand r s).trace = s.trace := rfl

@[simp] theorem toStage_cfg (g : Stage) (s : State) : (toStage g s).cfg = s.cfg := rfl
@[simp] theorem toStage_seq (g : Stage) (s : State) : (toStage g s).seq = s.seq := rfl
@[simp] theorem toStage_en (g : Stage) (s : State) : (toStage g s).brg.en = s.brg.en := rfl
@[simp] theorem toStage_speed (g : Stage) (s : State) : (toStage g s).brg.speed = s.brg.speed := rfl
@[simp] theorem toStage_spud (g : Stage) (s : State) : (toStage g s).brg.spud = s.brg.spud := rfl
@[simp] theorem toStage_ppd (g : Stage) (s : State) : (toStage g s).brg.ppd = s.brg.ppd := rfl
@[simp] theorem toStage_slew (g : Stage) (s : State) : (toStage g s).brg.slew = s.brg.slew := rfl
@[simp] theorem toStage_tp0 (g : Stage) (s : State) : (toStage g s).brg.tp0 = s.brg.tp0 := rfl
@[simp] theorem toStage_tp1 (g : Stage) (s : State) : (toStage g s).brg.tp1 = s.brg.tp1 := rfl
@[simp] theorem toStage_halt (g : Stage) (s : State) : (toStage g s).brg.halt = s.brg.halt := rfl
@[simp] theorem toStage_epof (g : Stage) (s : State) : (toStage g s).brg.epof = s.brg.epof := rfl
@[simp] theorem toStage_curcmd (g : Stage) (s : State) :
    (toStage g s).brg.curcmd = s.brg.curcmd := rfl
@[simp] theorem toStage_cbuf (g : Stage) (s : State) : (toStage g s).brg.cbuf = s.brg.cbuf := rfl
@[simp] theorem toStage_wbuf (g : Stage) (s : State) : (toStage g s).brg.wbuf = s.brg.wbuf := rfl
@[simp] theorem toStage_rbuf (g : Stage) (s : State) : (toStage g s).brg.rbuf = s.brg.rbuf := rfl
@[simp] theorem toStage_resq (g : Stage) (s : State) : (toStage g s).brg.resq = s.brg.resq := rfl
@[simp] theorem toStage_fault (g : Stage) (s : State) : (toStage g s).brg.fault = s.brg.fault := rfl
@[simp] theorem toStage_exec (g : Stage) (s : State) : (toStage g s).brg.exec = s.brg.exec := rfl
@[simp] theorem toStage_cur (g : Stage) (s : State) : (toStage g s).brg.cur = s.brg.cur := rfl
@[simp] theorem toStage_k (g : Stage) (s : State) : (toStage g s).brg.k = s.brg.k := rfl
@[simp] theorem toStage_m (g : Stage) (s : State) : (toStage g s).brg.m = s.brg.m := rfl
@[simp] theorem toStage_pulse (g : Stage) (s : State) : (toStage g s).brg.pulse = s.brg.pulse := rfl
@[simp] theorem toStage_stage (g : Stage) (s : State) : (toStage g s).brg.stage = g := rfl
@[simp] theorem toStage_x (g : Stage) (s : State) : (toStage g s).brg.x = s.brg.x := rfl
@[simp] theorem toStage_e (g : Stage) (s : State) : (toStage g s).brg.e = s.brg.e := rfl
@[simp] theorem toStage_res (g : Stage) (s : State) : (toStage g s).brg.res = s.brg.res := rfl
@[simp] theorem toStage_now (g : Stage) (s : State) : (toStage g s).now = s.now := rfl
@[simp] theorem toStage_vppIn (g : Stage) (s : State) : (toStage g s).vppIn = s.vppIn := rfl
@[simp] theorem toStage_pmodIn (g : Stage) (s : State) : (toStage g s).pmodIn = s.pmodIn := rfl
@[simp] theorem toStage_wire (g : Stage) (s : State) : (toStage g s).wire = s.wire := rfl
@[simp] theorem toStage_agenda (g : Stage) (s : State) : (toStage g s).agenda = s.agenda := rfl
@[simp] theorem toStage_draws (g : Stage) (s : State) : (toStage g s).draws = s.draws := rfl
@[simp] theorem toStage_lastIn (g : Stage) (s : State) : (toStage g s).lastIn = s.lastIn := rfl
@[simp] theorem toStage_trace (g : Stage) (s : State) : (toStage g s).trace = s.trace := rfl

@[simp] theorem addResult_cfg (r : Byte) (s : State) : (addResult r s).cfg = s.cfg := rfl
@[simp] theorem addResult_seq (r : Byte) (s : State) : (addResult r s).seq = s.seq := rfl
@[simp] theorem addResult_en (r : Byte) (s : State) : (addResult r s).brg.en = s.brg.en := rfl
@[simp] theorem addResult_speed (r : Byte) (s : State) :
    (addResult r s).brg.speed = s.brg.speed := rfl
@[simp] theorem addResult_spud (r : Byte) (s : State) : (addResult r s).brg.spud = s.brg.spud := rfl
@[simp] theorem addResult_ppd (r : Byte) (s : State) : (addResult r s).brg.ppd = s.brg.ppd := rfl
@[simp] theorem addResult_slew (r : Byte) (s : State) : (addResult r s).brg.slew = s.brg.slew := rfl
@[simp] theorem addResult_tp0 (r : Byte) (s : State) : (addResult r s).brg.tp0 = s.brg.tp0 := rfl
@[simp] theorem addResult_tp1 (r : Byte) (s : State) : (addResult r s).brg.tp1 = s.brg.tp1 := rfl
@[simp] theorem addResult_halt (r : Byte) (s : State) : (addResult r s).brg.halt = s.brg.halt := rfl
@[simp] theorem addResult_epof (r : Byte) (s : State) : (addResult r s).brg.epof = s.brg.epof := rfl
@[simp] theorem addResult_curcmd (r : Byte) (s : State) :
    (addResult r s).brg.curcmd = s.brg.curcmd := rfl
@[simp] theorem addResult_cbuf (r : Byte) (s : State) : (addResult r s).brg.cbuf = s.brg.cbuf := rfl
@[simp] theorem addResult_wbuf (r : Byte) (s : State) : (addResult r s).brg.wbuf = s.brg.wbuf := rfl
@[simp] theorem addResult_rbuf (r : Byte) (s : State) : (addResult r s).brg.rbuf = s.brg.rbuf := rfl
@[simp] theorem addResult_resq (r : Byte) (s : State) : (addResult r s).brg.resq = s.brg.resq := rfl
@[simp] theorem addResult_fault (r : Byte) (s : State) :
    (addResult r s).brg.fault = s.brg.fault := rfl
@[simp] theorem addResult_exec (r : Byte) (s : State) : (addResult r s).brg.exec = s.brg.exec := rfl
@[simp] theorem addResult_cur (r : Byte) (s : State) : (addResult r s).brg.cur = s.brg.cur := rfl
@[simp] theorem addResult_k (r : Byte) (s : State) : (addResult r s).brg.k = s.brg.k := rfl
@[simp] theorem addResult_m (r : Byte) (s : State) : (addResult r s).brg.m = s.brg.m := rfl
@[simp] theorem addResult_pulse (r : Byte) (s : State) :
    (addResult r s).brg.pulse = s.brg.pulse := rfl
@[simp] theorem addResult_stage (r : Byte) (s : State) :
    (addResult r s).brg.stage = s.brg.stage := rfl
@[simp] theorem addResult_x (r : Byte) (s : State) : (addResult r s).brg.x = s.brg.x := rfl
@[simp] theorem addResult_e (r : Byte) (s : State) : (addResult r s).brg.e = s.brg.e := rfl
@[simp] theorem addResult_res (r : Byte) (s : State) :
    (addResult r s).brg.res = s.brg.res ||| r := rfl
@[simp] theorem addResult_now (r : Byte) (s : State) : (addResult r s).now = s.now := rfl
@[simp] theorem addResult_vppIn (r : Byte) (s : State) : (addResult r s).vppIn = s.vppIn := rfl
@[simp] theorem addResult_pmodIn (r : Byte) (s : State) : (addResult r s).pmodIn = s.pmodIn := rfl
@[simp] theorem addResult_wire (r : Byte) (s : State) : (addResult r s).wire = s.wire := rfl
@[simp] theorem addResult_agenda (r : Byte) (s : State) : (addResult r s).agenda = s.agenda := rfl
@[simp] theorem addResult_draws (r : Byte) (s : State) : (addResult r s).draws = s.draws := rfl
@[simp] theorem addResult_lastIn (r : Byte) (s : State) : (addResult r s).lastIn = s.lastIn := rfl
@[simp] theorem addResult_trace (r : Byte) (s : State) : (addResult r s).trace = s.trace := rfl

@[simp] theorem powerOnBridge_cfg (s : State) : (powerOnBridge s).cfg = s.cfg := rfl
@[simp] theorem powerOnBridge_seq (s : State) : (powerOnBridge s).seq = s.seq := rfl
@[simp] theorem powerOnBridge_en (s : State) : (powerOnBridge s).brg.en = 0x00#8 := rfl
@[simp] theorem powerOnBridge_speed (s : State) :
    (powerOnBridge s).brg.speed = s.cfg.speeds.regular := rfl
@[simp] theorem powerOnBridge_spud (s : State) :
    (powerOnBridge s).brg.spud = Config.freeByte s.draws := rfl
@[simp] theorem powerOnBridge_ppd (s : State) :
    (powerOnBridge s).brg.ppd = Config.freeByte (s.draws + 1) := rfl
@[simp] theorem powerOnBridge_slew (s : State) :
    (powerOnBridge s).brg.slew = Config.freeByte (s.draws + 2) := rfl
@[simp] theorem powerOnBridge_tp0 (s : State) :
    (powerOnBridge s).brg.tp0 = Config.freeByte (s.draws + 3) := rfl
@[simp] theorem powerOnBridge_tp1 (s : State) :
    (powerOnBridge s).brg.tp1 = Config.freeByte (s.draws + 4) := rfl
@[simp] theorem powerOnBridge_halt (s : State) : (powerOnBridge s).brg.halt = false := rfl
@[simp] theorem powerOnBridge_epof (s : State) : (powerOnBridge s).brg.epof = true := rfl
@[simp] theorem powerOnBridge_curcmd (s : State) : (powerOnBridge s).brg.curcmd = 0x0000#16 := rfl
@[simp] theorem powerOnBridge_cbuf (s : State) : (powerOnBridge s).brg.cbuf = [] := rfl
@[simp] theorem powerOnBridge_wbuf (s : State) : (powerOnBridge s).brg.wbuf = [] := rfl
@[simp] theorem powerOnBridge_rbuf (s : State) : (powerOnBridge s).brg.rbuf = [] := rfl
@[simp] theorem powerOnBridge_resq (s : State) : (powerOnBridge s).brg.resq = [] := rfl
@[simp] theorem powerOnBridge_fault (s : State) : (powerOnBridge s).brg.fault = .none := rfl
@[simp] theorem powerOnBridge_exec (s : State) : (powerOnBridge s).brg.exec = .idle := rfl
@[simp] theorem powerOnBridge_cur (s : State) : (powerOnBridge s).brg.cur = none := rfl
@[simp] theorem powerOnBridge_k (s : State) : (powerOnBridge s).brg.k = 0 := rfl
@[simp] theorem powerOnBridge_m (s : State) : (powerOnBridge s).brg.m = 0 := rfl
@[simp] theorem powerOnBridge_pulse (s : State) : (powerOnBridge s).brg.pulse = .off := rfl
@[simp] theorem powerOnBridge_stage (s : State) : (powerOnBridge s).brg.stage = .body := rfl
@[simp] theorem powerOnBridge_x (s : State) : (powerOnBridge s).brg.x = 0#8 := rfl
@[simp] theorem powerOnBridge_e (s : State) : (powerOnBridge s).brg.e = 0#8 := rfl
@[simp] theorem powerOnBridge_res (s : State) : (powerOnBridge s).brg.res = 0#8 := rfl
@[simp] theorem powerOnBridge_now (s : State) : (powerOnBridge s).now = s.now := rfl
@[simp] theorem powerOnBridge_vppIn (s : State) : (powerOnBridge s).vppIn = s.vppIn := rfl
@[simp] theorem powerOnBridge_pmodIn (s : State) : (powerOnBridge s).pmodIn = s.pmodIn := rfl
@[simp] theorem powerOnBridge_wire (s : State) : (powerOnBridge s).wire = s.wire := rfl
@[simp] theorem powerOnBridge_agenda (s : State) : (powerOnBridge s).agenda = s.agenda := rfl
@[simp] theorem powerOnBridge_draws (s : State) : (powerOnBridge s).draws = s.draws + 5 := rfl
@[simp] theorem powerOnBridge_lastIn (s : State) : (powerOnBridge s).lastIn = s.lastIn := rfl
@[simp] theorem powerOnBridge_trace (s : State) : (powerOnBridge s).trace = s.trace := rfl

@[simp] theorem deviceReset_cfg (s : State) : (deviceReset s).cfg = s.cfg := rfl
@[simp] theorem deviceReset_seq (s : State) : (deviceReset s).seq = s.seq := rfl
@[simp] theorem deviceReset_en (s : State) : (deviceReset s).brg.en = 0x00#8 := rfl
@[simp] theorem deviceReset_speed (s : State) :
    (deviceReset s).brg.speed = s.cfg.speeds.regular := rfl
@[simp] theorem deviceReset_spud (s : State) :
    (deviceReset s).brg.spud = Config.freeByte s.draws := rfl
@[simp] theorem deviceReset_ppd (s : State) :
    (deviceReset s).brg.ppd = Config.freeByte (s.draws + 1) := rfl
@[simp] theorem deviceReset_slew (s : State) :
    (deviceReset s).brg.slew = Config.freeByte (s.draws + 2) := rfl
@[simp] theorem deviceReset_tp0 (s : State) :
    (deviceReset s).brg.tp0 = Config.freeByte (s.draws + 3) := rfl
@[simp] theorem deviceReset_tp1 (s : State) :
    (deviceReset s).brg.tp1 = Config.freeByte (s.draws + 4) := rfl
@[simp] theorem deviceReset_halt (s : State) : (deviceReset s).brg.halt = false := rfl
@[simp] theorem deviceReset_epof (s : State) : (deviceReset s).brg.epof = false := rfl
@[simp] theorem deviceReset_curcmd (s : State) : (deviceReset s).brg.curcmd = 0x0000#16 := rfl
@[simp] theorem deviceReset_cbuf (s : State) : (deviceReset s).brg.cbuf = [] := rfl
@[simp] theorem deviceReset_wbuf (s : State) : (deviceReset s).brg.wbuf = [] := rfl
@[simp] theorem deviceReset_rbuf (s : State) : (deviceReset s).brg.rbuf = [] := rfl
@[simp] theorem deviceReset_resq (s : State) : (deviceReset s).brg.resq = [] := rfl
@[simp] theorem deviceReset_fault (s : State) : (deviceReset s).brg.fault = .none := rfl
@[simp] theorem deviceReset_exec (s : State) : (deviceReset s).brg.exec = .idle := rfl
@[simp] theorem deviceReset_cur (s : State) : (deviceReset s).brg.cur = none := rfl
@[simp] theorem deviceReset_k (s : State) : (deviceReset s).brg.k = 0 := rfl
@[simp] theorem deviceReset_m (s : State) : (deviceReset s).brg.m = 0 := rfl
@[simp] theorem deviceReset_pulse (s : State) : (deviceReset s).brg.pulse = .off := rfl
@[simp] theorem deviceReset_stage (s : State) : (deviceReset s).brg.stage = .body := rfl
@[simp] theorem deviceReset_x (s : State) : (deviceReset s).brg.x = 0#8 := rfl
@[simp] theorem deviceReset_e (s : State) : (deviceReset s).brg.e = 0#8 := rfl
@[simp] theorem deviceReset_res (s : State) : (deviceReset s).brg.res = 0#8 := rfl
@[simp] theorem deviceReset_now (s : State) : (deviceReset s).now = s.now := rfl
@[simp] theorem deviceReset_vppIn (s : State) : (deviceReset s).vppIn = s.vppIn := rfl
@[simp] theorem deviceReset_pmodIn (s : State) : (deviceReset s).pmodIn = s.pmodIn := rfl
@[simp] theorem deviceReset_wire (s : State) : (deviceReset s).wire = s.wire := rfl
@[simp] theorem deviceReset_agenda (s : State) : (deviceReset s).agenda = s.agenda := rfl
@[simp] theorem deviceReset_draws (s : State) : (deviceReset s).draws = s.draws + 5 := rfl
@[simp] theorem deviceReset_lastIn (s : State) : (deviceReset s).lastIn = s.lastIn := rfl
@[simp] theorem deviceReset_trace (s : State) : (deviceReset s).trace = s.trace := rfl

/-! ### The sequencer -/

@[simp] theorem setPhase_cfg (p : List Micro) (s : State) : (setPhase p s).cfg = s.cfg := rfl
@[simp] theorem setPhase_handle (p : List Micro) (s : State) :
    (setPhase p s).seq.handle = s.seq.handle := rfl
@[simp] theorem setPhase_busy (p : List Micro) (s : State) :
    (setPhase p s).seq.busy = s.seq.busy := rfl
@[simp] theorem setPhase_speed (p : List Micro) (s : State) :
    (setPhase p s).seq.speed = s.seq.speed := rfl
@[simp] theorem setPhase_pollMax (p : List Micro) (s : State) :
    (setPhase p s).seq.pollMax = s.seq.pollMax := rfl
@[simp] theorem setPhase_ctlTimeout (p : List Micro) (s : State) :
    (setPhase p s).seq.ctlTimeout = s.seq.ctlTimeout := rfl
@[simp] theorem setPhase_bulkTimeout (p : List Micro) (s : State) :
    (setPhase p s).seq.bulkTimeout = s.seq.bulkTimeout := rfl
@[simp] theorem setPhase_present (p : List Micro) (s : State) :
    (setPhase p s).seq.present = s.seq.present := rfl
@[simp] theorem setPhase_vpp (p : List Micro) (s : State) :
    (setPhase p s).seq.vpp = s.seq.vpp := rfl
@[simp] theorem setPhase_rtail (p : List Micro) (s : State) :
    (setPhase p s).seq.rtail = s.seq.rtail := rfl
@[simp] theorem setPhase_lastSf (p : List Micro) (s : State) :
    (setPhase p s).seq.lastSf = s.seq.lastSf := rfl
@[simp] theorem setPhase_ss (p : List Micro) (s : State) : (setPhase p s).seq.ss = s.seq.ss := rfl
@[simp] theorem setPhase_op (p : List Micro) (s : State) : (setPhase p s).seq.op = s.seq.op := rfl
@[simp] theorem setPhase_phase (p : List Micro) (s : State) : (setPhase p s).seq.phase = p := rfl
@[simp] theorem setPhase_n (p : List Micro) (s : State) : (setPhase p s).seq.n = s.seq.n := rfl
@[simp] theorem setPhase_i (p : List Micro) (s : State) : (setPhase p s).seq.i = s.seq.i := rfl
@[simp] theorem setPhase_lastZero (p : List Micro) (s : State) :
    (setPhase p s).seq.lastZero = s.seq.lastZero := rfl
@[simp] theorem setPhase_workRom (p : List Micro) (s : State) :
    (setPhase p s).seq.workRom = s.seq.workRom := rfl
@[simp] theorem setPhase_bytes (p : List Micro) (s : State) :
    (setPhase p s).seq.bytes = s.seq.bytes := rfl
@[simp] theorem setPhase_healthy (p : List Micro) (s : State) :
    (setPhase p s).seq.healthy = s.seq.healthy := rfl
@[simp] theorem setPhase_idBit (p : List Micro) (s : State) :
    (setPhase p s).seq.idBit = s.seq.idBit := rfl
@[simp] theorem setPhase_compBit (p : List Micro) (s : State) :
    (setPhase p s).seq.compBit = s.seq.compBit := rfl
@[simp] theorem setPhase_taken (p : List Micro) (s : State) :
    (setPhase p s).seq.taken = s.seq.taken := rfl
@[simp] theorem setPhase_flag (p : List Micro) (s : State) :
    (setPhase p s).seq.flag = s.seq.flag := rfl
@[simp] theorem setPhase_porSeen (p : List Micro) (s : State) :
    (setPhase p s).seq.porSeen = s.seq.porSeen := rfl
@[simp] theorem setPhase_found (p : List Micro) (s : State) :
    (setPhase p s).seq.found = s.seq.found := rfl
@[simp] theorem setPhase_answer (p : List Micro) (s : State) :
    (setPhase p s).seq.answer = s.seq.answer := rfl
@[simp] theorem setPhase_brg (p : List Micro) (s : State) : (setPhase p s).brg = s.brg := rfl
@[simp] theorem setPhase_now (p : List Micro) (s : State) : (setPhase p s).now = s.now := rfl
@[simp] theorem setPhase_vppIn (p : List Micro) (s : State) : (setPhase p s).vppIn = s.vppIn := rfl
@[simp] theorem setPhase_pmodIn (p : List Micro) (s : State) :
    (setPhase p s).pmodIn = s.pmodIn := rfl
@[simp] theorem setPhase_wire (p : List Micro) (s : State) : (setPhase p s).wire = s.wire := rfl
@[simp] theorem setPhase_agenda (p : List Micro) (s : State) :
    (setPhase p s).agenda = s.agenda := rfl
@[simp] theorem setPhase_draws (p : List Micro) (s : State) : (setPhase p s).draws = s.draws := rfl
@[simp] theorem setPhase_lastIn (p : List Micro) (s : State) :
    (setPhase p s).lastIn = s.lastIn := rfl
@[simp] theorem setPhase_trace (p : List Micro) (s : State) : (setPhase p s).trace = s.trace := rfl

@[simp] theorem pushPhase_cfg (p : List Micro) (s : State) : (pushPhase p s).cfg = s.cfg := rfl
@[simp] theorem pushPhase_handle (p : List Micro) (s : State) :
    (pushPhase p s).seq.handle = s.seq.handle := rfl
@[simp] theorem pushPhase_busy (p : List Micro) (s : State) :
    (pushPhase p s).seq.busy = s.seq.busy := rfl
@[simp] theorem pushPhase_speed (p : List Micro) (s : State) :
    (pushPhase p s).seq.speed = s.seq.speed := rfl
@[simp] theorem pushPhase_pollMax (p : List Micro) (s : State) :
    (pushPhase p s).seq.pollMax = s.seq.pollMax := rfl
@[simp] theorem pushPhase_ctlTimeout (p : List Micro) (s : State) :
    (pushPhase p s).seq.ctlTimeout = s.seq.ctlTimeout := rfl
@[simp] theorem pushPhase_bulkTimeout (p : List Micro) (s : State) :
    (pushPhase p s).seq.bulkTimeout = s.seq.bulkTimeout := rfl
@[simp] theorem pushPhase_present (p : List Micro) (s : State) :
    (pushPhase p s).seq.present = s.seq.present := rfl
@[simp] theorem pushPhase_vpp (p : List Micro) (s : State) :
    (pushPhase p s).seq.vpp = s.seq.vpp := rfl
@[simp] theorem pushPhase_rtail (p : List Micro) (s : State) :
    (pushPhase p s).seq.rtail = s.seq.rtail := rfl
@[simp] theorem pushPhase_lastSf (p : List Micro) (s : State) :
    (pushPhase p s).seq.lastSf = s.seq.lastSf := rfl
@[simp] theorem pushPhase_ss (p : List Micro) (s : State) : (pushPhase p s).seq.ss = s.seq.ss := rfl
@[simp] theorem pushPhase_op (p : List Micro) (s : State) : (pushPhase p s).seq.op = s.seq.op := rfl
@[simp] theorem pushPhase_phase (p : List Micro) (s : State) :
    (pushPhase p s).seq.phase = p ++ s.seq.phase := rfl
@[simp] theorem pushPhase_n (p : List Micro) (s : State) : (pushPhase p s).seq.n = s.seq.n := rfl
@[simp] theorem pushPhase_i (p : List Micro) (s : State) : (pushPhase p s).seq.i = s.seq.i := rfl
@[simp] theorem pushPhase_lastZero (p : List Micro) (s : State) :
    (pushPhase p s).seq.lastZero = s.seq.lastZero := rfl
@[simp] theorem pushPhase_workRom (p : List Micro) (s : State) :
    (pushPhase p s).seq.workRom = s.seq.workRom := rfl
@[simp] theorem pushPhase_bytes (p : List Micro) (s : State) :
    (pushPhase p s).seq.bytes = s.seq.bytes := rfl
@[simp] theorem pushPhase_healthy (p : List Micro) (s : State) :
    (pushPhase p s).seq.healthy = s.seq.healthy := rfl
@[simp] theorem pushPhase_idBit (p : List Micro) (s : State) :
    (pushPhase p s).seq.idBit = s.seq.idBit := rfl
@[simp] theorem pushPhase_compBit (p : List Micro) (s : State) :
    (pushPhase p s).seq.compBit = s.seq.compBit := rfl
@[simp] theorem pushPhase_taken (p : List Micro) (s : State) :
    (pushPhase p s).seq.taken = s.seq.taken := rfl
@[simp] theorem pushPhase_flag (p : List Micro) (s : State) :
    (pushPhase p s).seq.flag = s.seq.flag := rfl
@[simp] theorem pushPhase_porSeen (p : List Micro) (s : State) :
    (pushPhase p s).seq.porSeen = s.seq.porSeen := rfl
@[simp] theorem pushPhase_found (p : List Micro) (s : State) :
    (pushPhase p s).seq.found = s.seq.found := rfl
@[simp] theorem pushPhase_answer (p : List Micro) (s : State) :
    (pushPhase p s).seq.answer = s.seq.answer := rfl
@[simp] theorem pushPhase_brg (p : List Micro) (s : State) : (pushPhase p s).brg = s.brg := rfl
@[simp] theorem pushPhase_now (p : List Micro) (s : State) : (pushPhase p s).now = s.now := rfl
@[simp] theorem pushPhase_vppIn (p : List Micro) (s : State) :
    (pushPhase p s).vppIn = s.vppIn := rfl
@[simp] theorem pushPhase_pmodIn (p : List Micro) (s : State) :
    (pushPhase p s).pmodIn = s.pmodIn := rfl
@[simp] theorem pushPhase_wire (p : List Micro) (s : State) : (pushPhase p s).wire = s.wire := rfl
@[simp] theorem pushPhase_agenda (p : List Micro) (s : State) :
    (pushPhase p s).agenda = s.agenda := rfl
@[simp] theorem pushPhase_draws (p : List Micro) (s : State) :
    (pushPhase p s).draws = s.draws := rfl
@[simp] theorem pushPhase_lastIn (p : List Micro) (s : State) :
    (pushPhase p s).lastIn = s.lastIn := rfl
@[simp] theorem pushPhase_trace (p : List Micro) (s : State) :
    (pushPhase p s).trace = s.trace := rfl

@[simp] theorem endOperation_cfg (a : Answer) (s : State) : (endOperation a s).cfg = s.cfg := rfl
@[simp] theorem endOperation_handle (a : Answer) (s : State) :
    (endOperation a s).seq.handle = s.seq.handle := rfl
@[simp] theorem endOperation_busy (a : Answer) (s : State) :
    (endOperation a s).seq.busy = false := rfl
@[simp] theorem endOperation_speed (a : Answer) (s : State) :
    (endOperation a s).seq.speed = s.seq.speed := rfl
@[simp] theorem endOperation_pollMax (a : Answer) (s : State) :
    (endOperation a s).seq.pollMax = s.seq.pollMax := rfl
@[simp] theorem endOperation_ctlTimeout (a : Answer) (s : State) :
    (endOperation a s).seq.ctlTimeout = s.seq.ctlTimeout := rfl
@[simp] theorem endOperation_bulkTimeout (a : Answer) (s : State) :
    (endOperation a s).seq.bulkTimeout = s.seq.bulkTimeout := rfl
@[simp] theorem endOperation_present (a : Answer) (s : State) :
    (endOperation a s).seq.present = s.seq.present := rfl
@[simp] theorem endOperation_vpp (a : Answer) (s : State) :
    (endOperation a s).seq.vpp = s.seq.vpp := rfl
@[simp] theorem endOperation_rtail (a : Answer) (s : State) :
    (endOperation a s).seq.rtail = s.seq.rtail := rfl
@[simp] theorem endOperation_lastSf (a : Answer) (s : State) :
    (endOperation a s).seq.lastSf = s.seq.lastSf := rfl
@[simp] theorem endOperation_ss (a : Answer) (s : State) :
    (endOperation a s).seq.ss = s.seq.ss := rfl
@[simp] theorem endOperation_op (a : Answer) (s : State) : (endOperation a s).seq.op = none := rfl
@[simp] theorem endOperation_phase (a : Answer) (s : State) :
    (endOperation a s).seq.phase = [] := rfl
@[simp] theorem endOperation_n (a : Answer) (s : State) : (endOperation a s).seq.n = 0 := rfl
@[simp] theorem endOperation_i (a : Answer) (s : State) : (endOperation a s).seq.i = 0 := rfl
@[simp] theorem endOperation_lastZero (a : Answer) (s : State) :
    (endOperation a s).seq.lastZero = none := rfl
@[simp] theorem endOperation_workRom (a : Answer) (s : State) :
    (endOperation a s).seq.workRom = 0#64 := rfl
@[simp] theorem endOperation_bytes (a : Answer) (s : State) :
    (endOperation a s).seq.bytes = [] := rfl
@[simp] theorem endOperation_healthy (a : Answer) (s : State) :
    (endOperation a s).seq.healthy = false := rfl
@[simp] theorem endOperation_idBit (a : Answer) (s : State) :
    (endOperation a s).seq.idBit = false := rfl
@[simp] theorem endOperation_compBit (a : Answer) (s : State) :
    (endOperation a s).seq.compBit = false := rfl
@[simp] theorem endOperation_taken (a : Answer) (s : State) :
    (endOperation a s).seq.taken = none := rfl
@[simp] theorem endOperation_flag (a : Answer) (s : State) :
    (endOperation a s).seq.flag = false := rfl
@[simp] theorem endOperation_porSeen (a : Answer) (s : State) :
    (endOperation a s).seq.porSeen = false := rfl
@[simp] theorem endOperation_found (a : Answer) (s : State) :
    (endOperation a s).seq.found = [] := rfl
@[simp] theorem endOperation_answer (a : Answer) (s : State) :
    (endOperation a s).seq.answer = some a := rfl
@[simp] theorem endOperation_brg (a : Answer) (s : State) : (endOperation a s).brg = s.brg := rfl
@[simp] theorem endOperation_now (a : Answer) (s : State) : (endOperation a s).now = s.now := rfl
@[simp] theorem endOperation_vppIn (a : Answer) (s : State) :
    (endOperation a s).vppIn = s.vppIn := rfl
@[simp] theorem endOperation_pmodIn (a : Answer) (s : State) :
    (endOperation a s).pmodIn = s.pmodIn := rfl
@[simp] theorem endOperation_wire (a : Answer) (s : State) : (endOperation a s).wire = s.wire := rfl
@[simp] theorem endOperation_agenda (a : Answer) (s : State) :
    (endOperation a s).agenda = s.agenda := rfl
@[simp] theorem endOperation_draws (a : Answer) (s : State) :
    (endOperation a s).draws = s.draws := rfl
@[simp] theorem endOperation_lastIn (a : Answer) (s : State) :
    (endOperation a s).lastIn = s.lastIn := rfl
@[simp] theorem endOperation_trace (a : Answer) (s : State) :
    (endOperation a s).trace = s.trace := rfl

@[simp] theorem enterRecovery_cfg (e : ErrorKind) (rest : List Micro) (s : State) :
    (enterRecovery e rest s).cfg = s.cfg := rfl
@[simp] theorem enterRecovery_handle (e : ErrorKind) (rest : List Micro) (s : State) :
    (enterRecovery e rest s).seq.handle = s.seq.handle := rfl
@[simp] theorem enterRecovery_busy (e : ErrorKind) (rest : List Micro) (s : State) :
    (enterRecovery e rest s).seq.busy = s.seq.busy := rfl
@[simp] theorem enterRecovery_speed (e : ErrorKind) (rest : List Micro) (s : State) :
    (enterRecovery e rest s).seq.speed = s.seq.speed := rfl
@[simp] theorem enterRecovery_pollMax (e : ErrorKind) (rest : List Micro) (s : State) :
    (enterRecovery e rest s).seq.pollMax = s.seq.pollMax := rfl
@[simp] theorem enterRecovery_ctlTimeout (e : ErrorKind) (rest : List Micro) (s : State) :
    (enterRecovery e rest s).seq.ctlTimeout = s.seq.ctlTimeout := rfl
@[simp] theorem enterRecovery_bulkTimeout (e : ErrorKind) (rest : List Micro) (s : State) :
    (enterRecovery e rest s).seq.bulkTimeout = s.seq.bulkTimeout := rfl
@[simp] theorem enterRecovery_present (e : ErrorKind) (rest : List Micro) (s : State) :
    (enterRecovery e rest s).seq.present = s.seq.present := rfl
@[simp] theorem enterRecovery_vpp (e : ErrorKind) (rest : List Micro) (s : State) :
    (enterRecovery e rest s).seq.vpp = s.seq.vpp := rfl
@[simp] theorem enterRecovery_rtail (e : ErrorKind) (rest : List Micro) (s : State) :
    (enterRecovery e rest s).seq.rtail = s.seq.rtail := rfl
@[simp] theorem enterRecovery_lastSf (e : ErrorKind) (rest : List Micro) (s : State) :
    (enterRecovery e rest s).seq.lastSf = s.seq.lastSf := rfl
@[simp] theorem enterRecovery_ss (e : ErrorKind) (rest : List Micro) (s : State) :
    (enterRecovery e rest s).seq.ss = s.seq.ss := rfl
@[simp] theorem enterRecovery_op (e : ErrorKind) (rest : List Micro) (s : State) :
    (enterRecovery e rest s).seq.op = s.seq.op := rfl
@[simp] theorem enterRecovery_phase (e : ErrorKind) (rest : List Micro) (s : State) :
    (enterRecovery e rest s).seq.phase = initSequence s.cfg ++ .endDrop :: .reraise e :: rest := rfl
@[simp] theorem enterRecovery_n (e : ErrorKind) (rest : List Micro) (s : State) :
    (enterRecovery e rest s).seq.n = s.seq.n := rfl
@[simp] theorem enterRecovery_i (e : ErrorKind) (rest : List Micro) (s : State) :
    (enterRecovery e rest s).seq.i = s.seq.i := rfl
@[simp] theorem enterRecovery_lastZero (e : ErrorKind) (rest : List Micro) (s : State) :
    (enterRecovery e rest s).seq.lastZero = s.seq.lastZero := rfl
@[simp] theorem enterRecovery_workRom (e : ErrorKind) (rest : List Micro) (s : State) :
    (enterRecovery e rest s).seq.workRom = s.seq.workRom := rfl
@[simp] theorem enterRecovery_bytes (e : ErrorKind) (rest : List Micro) (s : State) :
    (enterRecovery e rest s).seq.bytes = s.seq.bytes := rfl
@[simp] theorem enterRecovery_healthy (e : ErrorKind) (rest : List Micro) (s : State) :
    (enterRecovery e rest s).seq.healthy = s.seq.healthy := rfl
@[simp] theorem enterRecovery_idBit (e : ErrorKind) (rest : List Micro) (s : State) :
    (enterRecovery e rest s).seq.idBit = s.seq.idBit := rfl
@[simp] theorem enterRecovery_compBit (e : ErrorKind) (rest : List Micro) (s : State) :
    (enterRecovery e rest s).seq.compBit = s.seq.compBit := rfl
@[simp] theorem enterRecovery_taken (e : ErrorKind) (rest : List Micro) (s : State) :
    (enterRecovery e rest s).seq.taken = s.seq.taken := rfl
@[simp] theorem enterRecovery_flag (e : ErrorKind) (rest : List Micro) (s : State) :
    (enterRecovery e rest s).seq.flag = s.seq.flag := rfl
@[simp] theorem enterRecovery_porSeen (e : ErrorKind) (rest : List Micro) (s : State) :
    (enterRecovery e rest s).seq.porSeen = s.seq.porSeen := rfl
@[simp] theorem enterRecovery_found (e : ErrorKind) (rest : List Micro) (s : State) :
    (enterRecovery e rest s).seq.found = s.seq.found := rfl
@[simp] theorem enterRecovery_answer (e : ErrorKind) (rest : List Micro) (s : State) :
    (enterRecovery e rest s).seq.answer = s.seq.answer := rfl
@[simp] theorem enterRecovery_brg (e : ErrorKind) (rest : List Micro) (s : State) :
    (enterRecovery e rest s).brg = s.brg := rfl
@[simp] theorem enterRecovery_now (e : ErrorKind) (rest : List Micro) (s : State) :
    (enterRecovery e rest s).now = s.now := rfl
@[simp] theorem enterRecovery_vppIn (e : ErrorKind) (rest : List Micro) (s : State) :
    (enterRecovery e rest s).vppIn = s.vppIn := rfl
@[simp] theorem enterRecovery_pmodIn (e : ErrorKind) (rest : List Micro) (s : State) :
    (enterRecovery e rest s).pmodIn = s.pmodIn := rfl
@[simp] theorem enterRecovery_wire (e : ErrorKind) (rest : List Micro) (s : State) :
    (enterRecovery e rest s).wire = s.wire := rfl
@[simp] theorem enterRecovery_agenda (e : ErrorKind) (rest : List Micro) (s : State) :
    (enterRecovery e rest s).agenda = s.agenda := rfl
@[simp] theorem enterRecovery_draws (e : ErrorKind) (rest : List Micro) (s : State) :
    (enterRecovery e rest s).draws = s.draws := rfl
@[simp] theorem enterRecovery_lastIn (e : ErrorKind) (rest : List Micro) (s : State) :
    (enterRecovery e rest s).lastIn = s.lastIn := rfl
@[simp] theorem enterRecovery_trace (e : ErrorKind) (rest : List Micro) (s : State) :
    (enterRecovery e rest s).trace = s.trace := rfl

/-! ### The environment -/

@[simp] theorem passTime_cfg (ms : Nat) (s : State) : (passTime ms s).cfg = s.cfg := rfl
@[simp] theorem passTime_seq (ms : Nat) (s : State) : (passTime ms s).seq = s.seq := rfl
@[simp] theorem passTime_en (ms : Nat) (s : State) : (passTime ms s).brg.en = s.brg.en := rfl
@[simp] theorem passTime_speed (ms : Nat) (s : State) :
    (passTime ms s).brg.speed = s.brg.speed := rfl
@[simp] theorem passTime_spud (ms : Nat) (s : State) : (passTime ms s).brg.spud = s.brg.spud := rfl
@[simp] theorem passTime_ppd (ms : Nat) (s : State) : (passTime ms s).brg.ppd = s.brg.ppd := rfl
@[simp] theorem passTime_slew (ms : Nat) (s : State) : (passTime ms s).brg.slew = s.brg.slew := rfl
@[simp] theorem passTime_tp0 (ms : Nat) (s : State) : (passTime ms s).brg.tp0 = s.brg.tp0 := rfl
@[simp] theorem passTime_tp1 (ms : Nat) (s : State) : (passTime ms s).brg.tp1 = s.brg.tp1 := rfl
@[simp] theorem passTime_halt (ms : Nat) (s : State) : (passTime ms s).brg.halt = s.brg.halt := rfl
@[simp] theorem passTime_epof (ms : Nat) (s : State) : (passTime ms s).brg.epof = s.brg.epof := rfl
@[simp] theorem passTime_curcmd (ms : Nat) (s : State) :
    (passTime ms s).brg.curcmd = s.brg.curcmd := rfl
@[simp] theorem passTime_cbuf (ms : Nat) (s : State) : (passTime ms s).brg.cbuf = s.brg.cbuf := rfl
@[simp] theorem passTime_wbuf (ms : Nat) (s : State) : (passTime ms s).brg.wbuf = s.brg.wbuf := rfl
@[simp] theorem passTime_rbuf (ms : Nat) (s : State) : (passTime ms s).brg.rbuf = s.brg.rbuf := rfl
@[simp] theorem passTime_resq (ms : Nat) (s : State) : (passTime ms s).brg.resq = s.brg.resq := rfl
@[simp] theorem passTime_fault (ms : Nat) (s : State) :
    (passTime ms s).brg.fault = s.brg.fault := rfl
@[simp] theorem passTime_exec (ms : Nat) (s : State) : (passTime ms s).brg.exec = s.brg.exec := rfl
@[simp] theorem passTime_cur (ms : Nat) (s : State) : (passTime ms s).brg.cur = s.brg.cur := rfl
@[simp] theorem passTime_k (ms : Nat) (s : State) : (passTime ms s).brg.k = s.brg.k := rfl
@[simp] theorem passTime_m (ms : Nat) (s : State) : (passTime ms s).brg.m = s.brg.m := rfl
@[simp] theorem passTime_pulse (ms : Nat) (s : State) :
    (passTime ms s).brg.pulse = s.brg.pulse.drain ms := rfl
@[simp] theorem passTime_stage (ms : Nat) (s : State) :
    (passTime ms s).brg.stage = s.brg.stage := rfl
@[simp] theorem passTime_x (ms : Nat) (s : State) : (passTime ms s).brg.x = s.brg.x := rfl
@[simp] theorem passTime_e (ms : Nat) (s : State) : (passTime ms s).brg.e = s.brg.e := rfl
@[simp] theorem passTime_res (ms : Nat) (s : State) : (passTime ms s).brg.res = s.brg.res := rfl
@[simp] theorem passTime_now (ms : Nat) (s : State) : (passTime ms s).now = s.now + ms := rfl
@[simp] theorem passTime_vppIn (ms : Nat) (s : State) : (passTime ms s).vppIn = s.vppIn := rfl
@[simp] theorem passTime_pmodIn (ms : Nat) (s : State) : (passTime ms s).pmodIn = s.pmodIn := rfl
@[simp] theorem passTime_wire (ms : Nat) (s : State) : (passTime ms s).wire = s.wire := rfl
@[simp] theorem passTime_agenda (ms : Nat) (s : State) : (passTime ms s).agenda = s.agenda := rfl
@[simp] theorem passTime_draws (ms : Nat) (s : State) : (passTime ms s).draws = s.draws := rfl
@[simp] theorem passTime_lastIn (ms : Nat) (s : State) : (passTime ms s).lastIn = s.lastIn := rfl
@[simp] theorem passTime_trace (ms : Nat) (s : State) : (passTime ms s).trace = s.trace := rfl

@[simp] theorem detectDevice_cfg (s : State) : (detectDevice s).cfg = s.cfg := rfl
@[simp] theorem detectDevice_seq (s : State) : (detectDevice s).seq = s.seq := rfl
@[simp] theorem detectDevice_en (s : State) : (detectDevice s).brg.en = s.brg.en := rfl
@[simp] theorem detectDevice_speed (s : State) : (detectDevice s).brg.speed = s.brg.speed := rfl
@[simp] theorem detectDevice_spud (s : State) : (detectDevice s).brg.spud = s.brg.spud := rfl
@[simp] theorem detectDevice_ppd (s : State) : (detectDevice s).brg.ppd = s.brg.ppd := rfl
@[simp] theorem detectDevice_slew (s : State) : (detectDevice s).brg.slew = s.brg.slew := rfl
@[simp] theorem detectDevice_tp0 (s : State) : (detectDevice s).brg.tp0 = s.brg.tp0 := rfl
@[simp] theorem detectDevice_tp1 (s : State) : (detectDevice s).brg.tp1 = s.brg.tp1 := rfl
@[simp] theorem detectDevice_halt (s : State) : (detectDevice s).brg.halt = s.brg.halt := rfl
@[simp] theorem detectDevice_epof (s : State) : (detectDevice s).brg.epof = s.brg.epof := rfl
@[simp] theorem detectDevice_curcmd (s : State) : (detectDevice s).brg.curcmd = s.brg.curcmd := rfl
@[simp] theorem detectDevice_cbuf (s : State) : (detectDevice s).brg.cbuf = s.brg.cbuf := rfl
@[simp] theorem detectDevice_wbuf (s : State) : (detectDevice s).brg.wbuf = s.brg.wbuf := rfl
@[simp] theorem detectDevice_rbuf (s : State) : (detectDevice s).brg.rbuf = s.brg.rbuf := rfl
@[simp] theorem detectDevice_resq (s : State) :
    (detectDevice s).brg.resq = s.brg.resq ++ [Config.deviceDetect] := rfl
@[simp] theorem detectDevice_fault (s : State) : (detectDevice s).brg.fault = s.brg.fault := rfl
@[simp] theorem detectDevice_exec (s : State) : (detectDevice s).brg.exec = s.brg.exec := rfl
@[simp] theorem detectDevice_cur (s : State) : (detectDevice s).brg.cur = s.brg.cur := rfl
@[simp] theorem detectDevice_k (s : State) : (detectDevice s).brg.k = s.brg.k := rfl
@[simp] theorem detectDevice_m (s : State) : (detectDevice s).brg.m = s.brg.m := rfl
@[simp] theorem detectDevice_pulse (s : State) : (detectDevice s).brg.pulse = s.brg.pulse := rfl
@[simp] theorem detectDevice_stage (s : State) : (detectDevice s).brg.stage = s.brg.stage := rfl
@[simp] theorem detectDevice_x (s : State) : (detectDevice s).brg.x = s.brg.x := rfl
@[simp] theorem detectDevice_e (s : State) : (detectDevice s).brg.e = s.brg.e := rfl
@[simp] theorem detectDevice_res (s : State) : (detectDevice s).brg.res = s.brg.res := rfl
@[simp] theorem detectDevice_now (s : State) : (detectDevice s).now = s.now := rfl
@[simp] theorem detectDevice_vppIn (s : State) : (detectDevice s).vppIn = s.vppIn := rfl
@[simp] theorem detectDevice_pmodIn (s : State) : (detectDevice s).pmodIn = s.pmodIn := rfl
@[simp] theorem detectDevice_wire (s : State) : (detectDevice s).wire = s.wire := rfl
@[simp] theorem detectDevice_agenda (s : State) : (detectDevice s).agenda = s.agenda := rfl
@[simp] theorem detectDevice_draws (s : State) : (detectDevice s).draws = s.draws := rfl
@[simp] theorem detectDevice_lastIn (s : State) : (detectDevice s).lastIn = s.lastIn := rfl
@[simp] theorem detectDevice_trace (s : State) : (detectDevice s).trace = s.trace := rfl

@[simp] theorem injectResult_cfg (cmp crc rdp eos : Bool) (s : State) :
    (injectResult cmp crc rdp eos s).cfg = s.cfg := rfl
@[simp] theorem injectResult_seq (cmp crc rdp eos : Bool) (s : State) :
    (injectResult cmp crc rdp eos s).seq = s.seq := rfl
@[simp] theorem injectResult_en (cmp crc rdp eos : Bool) (s : State) :
    (injectResult cmp crc rdp eos s).brg.en = s.brg.en := rfl
@[simp] theorem injectResult_speed (cmp crc rdp eos : Bool) (s : State) :
    (injectResult cmp crc rdp eos s).brg.speed = s.brg.speed := rfl
@[simp] theorem injectResult_spud (cmp crc rdp eos : Bool) (s : State) :
    (injectResult cmp crc rdp eos s).brg.spud = s.brg.spud := rfl
@[simp] theorem injectResult_ppd (cmp crc rdp eos : Bool) (s : State) :
    (injectResult cmp crc rdp eos s).brg.ppd = s.brg.ppd := rfl
@[simp] theorem injectResult_slew (cmp crc rdp eos : Bool) (s : State) :
    (injectResult cmp crc rdp eos s).brg.slew = s.brg.slew := rfl
@[simp] theorem injectResult_tp0 (cmp crc rdp eos : Bool) (s : State) :
    (injectResult cmp crc rdp eos s).brg.tp0 = s.brg.tp0 := rfl
@[simp] theorem injectResult_tp1 (cmp crc rdp eos : Bool) (s : State) :
    (injectResult cmp crc rdp eos s).brg.tp1 = s.brg.tp1 := rfl
@[simp] theorem injectResult_halt (cmp crc rdp eos : Bool) (s : State) :
    (injectResult cmp crc rdp eos s).brg.halt = s.brg.halt := rfl
@[simp] theorem injectResult_epof (cmp crc rdp eos : Bool) (s : State) :
    (injectResult cmp crc rdp eos s).brg.epof = s.brg.epof := rfl
@[simp] theorem injectResult_curcmd (cmp crc rdp eos : Bool) (s : State) :
    (injectResult cmp crc rdp eos s).brg.curcmd = s.brg.curcmd := rfl
@[simp] theorem injectResult_cbuf (cmp crc rdp eos : Bool) (s : State) :
    (injectResult cmp crc rdp eos s).brg.cbuf = s.brg.cbuf := rfl
@[simp] theorem injectResult_wbuf (cmp crc rdp eos : Bool) (s : State) :
    (injectResult cmp crc rdp eos s).brg.wbuf = s.brg.wbuf := rfl
@[simp] theorem injectResult_rbuf (cmp crc rdp eos : Bool) (s : State) :
    (injectResult cmp crc rdp eos s).brg.rbuf = s.brg.rbuf := rfl
@[simp] theorem injectResult_resq (cmp crc rdp eos : Bool) (s : State) :
    (injectResult cmp crc rdp eos s).brg.resq = s.brg.resq ++ [injectedResult cmp crc rdp eos] := rfl
@[simp] theorem injectResult_fault (cmp crc rdp eos : Bool) (s : State) :
    (injectResult cmp crc rdp eos s).brg.fault = s.brg.fault := rfl
@[simp] theorem injectResult_exec (cmp crc rdp eos : Bool) (s : State) :
    (injectResult cmp crc rdp eos s).brg.exec = s.brg.exec := rfl
@[simp] theorem injectResult_cur (cmp crc rdp eos : Bool) (s : State) :
    (injectResult cmp crc rdp eos s).brg.cur = s.brg.cur := rfl
@[simp] theorem injectResult_k (cmp crc rdp eos : Bool) (s : State) :
    (injectResult cmp crc rdp eos s).brg.k = s.brg.k := rfl
@[simp] theorem injectResult_m (cmp crc rdp eos : Bool) (s : State) :
    (injectResult cmp crc rdp eos s).brg.m = s.brg.m := rfl
@[simp] theorem injectResult_pulse (cmp crc rdp eos : Bool) (s : State) :
    (injectResult cmp crc rdp eos s).brg.pulse = s.brg.pulse := rfl
@[simp] theorem injectResult_stage (cmp crc rdp eos : Bool) (s : State) :
    (injectResult cmp crc rdp eos s).brg.stage = s.brg.stage := rfl
@[simp] theorem injectResult_x (cmp crc rdp eos : Bool) (s : State) :
    (injectResult cmp crc rdp eos s).brg.x = s.brg.x := rfl
@[simp] theorem injectResult_e (cmp crc rdp eos : Bool) (s : State) :
    (injectResult cmp crc rdp eos s).brg.e = s.brg.e := rfl
@[simp] theorem injectResult_res (cmp crc rdp eos : Bool) (s : State) :
    (injectResult cmp crc rdp eos s).brg.res = s.brg.res := rfl
@[simp] theorem injectResult_now (cmp crc rdp eos : Bool) (s : State) :
    (injectResult cmp crc rdp eos s).now = s.now := rfl
@[simp] theorem injectResult_vppIn (cmp crc rdp eos : Bool) (s : State) :
    (injectResult cmp crc rdp eos s).vppIn = s.vppIn := rfl
@[simp] theorem injectResult_pmodIn (cmp crc rdp eos : Bool) (s : State) :
    (injectResult cmp crc rdp eos s).pmodIn = s.pmodIn := rfl
@[simp] theorem injectResult_wire (cmp crc rdp eos : Bool) (s : State) :
    (injectResult cmp crc rdp eos s).wire = s.wire := rfl
@[simp] theorem injectResult_agenda (cmp crc rdp eos : Bool) (s : State) :
    (injectResult cmp crc rdp eos s).agenda = s.agenda := rfl
@[simp] theorem injectResult_draws (cmp crc rdp eos : Bool) (s : State) :
    (injectResult cmp crc rdp eos s).draws = s.draws := rfl
@[simp] theorem injectResult_lastIn (cmp crc rdp eos : Bool) (s : State) :
    (injectResult cmp crc rdp eos s).lastIn = s.lastIn := rfl
@[simp] theorem injectResult_trace (cmp crc rdp eos : Bool) (s : State) :
    (injectResult cmp crc rdp eos s).trace = s.trace := rfl

end Sys2Proof.Laws
end

