-- ==== Sys2Proof/Laws/Config.lean ====
section
/-! SUPPORT. What a legal configuration gives: the reference one is legal; flags read back as they were
set; every named byte stands at its offset; the fields of a comm value can be told apart. -/

namespace Sys2Proof.Laws

open Sys2Proof.Machine

theorem reference_chunkMax : Config.reference.chunkMax = 64 := rfl

theorem reference_bufCap : Config.reference.bufCap = Config.bufSlack + 64 := by rw [Config.reference]

theorem reference_chunk : 1 ≤ Config.reference.chunkMax ∧ Config.reference.chunkMax < 65536 ∧
    Config.reference.chunkMax ≤ Config.reference.bufCap := by
  rw [reference_bufCap, reference_chunkMax]; omega

theorem reference_codesInMask : ∀ v ∈ [Config.referenceComm.setDuration, Config.referenceComm.bitIo,
    Config.referenceComm.pulse, Config.referenceComm.onewireReset, Config.referenceComm.byteIo,
    Config.referenceComm.blockIo, Config.referenceComm.searchAccess],
    v &&& Config.referenceComm.codeMask = v := by
  simp only [List.forall_mem_cons, List.not_mem_nil, false_imp_iff, implies_true, and_true]
  exact ⟨rfl, rfl, rfl, rfl, rfl, rfl, rfl⟩

theorem reference_optionBits : ∀ m ∈ [Config.referenceComm.optIM, Config.referenceComm.optB3,
    Config.referenceComm.optRA, Config.referenceComm.optAC, Config.referenceComm.optSPU],
    ∃ k < 16, m = BitVec.twoPow 16 k := by
  intro m hm
  simp only [Config.referenceComm, List.mem_cons, List.not_mem_nil, or_false] at hm
  rcases hm with rfl | rfl | rfl | rfl | rfl
  exacts [⟨0, by decide⟩, ⟨3, by decide⟩, ⟨8, by decide⟩, ⟨10, by decide⟩, ⟨12, by decide⟩]

theorem reference_pulseEnBits : ∀ m ∈ [Config.referenceMode.valSPUE, Config.referenceMode.valPRGE],
    ∃ k < 8, m = BitVec.twoPow 16 k := by
  intro m hm
  simp only [Config.referenceMode, List.mem_cons, List.not_mem_nil, or_false] at hm
  rcases hm with rfl | rfl
  exacts [⟨0, by decide⟩, ⟨1, by decide⟩]

theorem reference_offsets : Config.referenceLayout.offsets.Nodup := by decide

theorem reference_offsetsFit :
    ∀ k ∈ Config.referenceLayout.offsets, k < Config.statusFixedLen := by decide

/-- The reference configuration is legal. -/
theorem reference_legal : Config.reference.Legal where
  cats := by decide
  selectors := by decide
  targets := by decide
  commCodes := by decide
  codesInMask := reference_codesInMask
  optionBits := reference_optionBits
  options := by unfold Apart; decide
  modeIds := by decide
  pulseEnBits := reference_pulseEnBits
  pulseEn := by decide
  enables := by unfold Apart; decide
  enableBits := by decide
  statusMasks := by unfold Apart; decide
  statusBits := by decide
  offsets := reference_offsets
  offsetsFit := reference_offsetsFit
  chunk := reference_chunk
  endpoints := by decide

/-- Which of two differing rules a machine follows has no part in whether its codes can be told apart. -/
theorem legal_of_readings {c : Config} (h : c.Legal) (r : Readings) :
    { c with readings := r }.Legal :=
  { h with }

/-! ### Flags -/

theorem testFlag_or (a b m : Byte) : testFlag (a ||| b) m = (testFlag a m || testFlag b m) := by
  simp only [testFlag, BitVec.and_or_distrib_right]
  rw [Bool.eq_iff_iff]
  simp only [bne_iff_ne, ne_eq, Bool.or_eq_true, BitVec.or_eq_zero_iff]
  tauto

/-- A flag that was set reads as it was set. -/
theorem testFlag_flagIf_self {m : Byte} (h : m ≠ 0#8) (b : Bool) : testFlag (flagIf b m) m = b := by
  cases b <;> simp [testFlag, flagIf, h]

/-- A flag does not show in another's mask. -/
theorem testFlag_flagIf_apart {m k : Byte} (h : m &&& k = 0#8) (b : Bool) :
    testFlag (flagIf b m) k = false := by
  cases b <;> simp [testFlag, flagIf, h]

/-! ### The Status Record -/

/-- Byte 10 of the reference layout, `layout.sf` of any legal one, shows the status flags. -/
theorem statusByte_sf {s : State} (h : s.cfg.Legal) : statusByte s s.cfg.layout.sf = statusFlags s := by
  have := List.nodup_reverse.2 h.offsets
  simp only [StatusLayout.offsets, List.reverse_cons, List.reverse_nil, List.nil_append, List.cons_append,
    List.nodup_cons, List.mem_cons, not_or] at this
  obtain ⟨-, -, -, -, -, ⟨h1, h2, h3, h4, h5, h6, h7, h8, h9, h10, -⟩, -⟩ := this
  simp only [statusByte, h1, h2, h3, h4, h5, h6, h7, h8, h9, h10, if_false, if_true]

/-- The flags of the record just read are the status flags (R222). -/
theorem recordFlags_statusRecord {s : State} (h : s.cfg.Legal) :
    recordFlags s.cfg (statusRecord s) = statusFlags s := by
  have hl : s.cfg.layout.sf < Config.statusFixedLen :=
    h.offsetsFit _ (by simp [StatusLayout.offsets])
  rw [recordFlags, statusRecord, List.getD_append _ _ _ _ (by simpa using hl), ← statusByte_sf h]
  simp [hl]

/-- The seven status flags, each under its own mask (R56). -/
theorem testFlag_statusFlags {s : State} (h : s.cfg.Legal) :
    testFlag (statusFlags s) s.cfg.flags.spua = s.brg.pulse.isSpu ∧
      testFlag (statusFlags s) s.cfg.flags.prga = s.brg.pulse.isPrg ∧
      testFlag (statusFlags s) s.cfg.flags.v12p = s.vppIn ∧
      testFlag (statusFlags s) s.cfg.flags.pmod = s.pmodIn ∧
      testFlag (statusFlags s) s.cfg.flags.halt = s.brg.halt ∧
      testFlag (statusFlags s) s.cfg.flags.idle = !s.brg.outstanding ∧
      testFlag (statusFlags s) s.cfg.flags.epof = s.brg.epof := by
  have ha := h.statusMasks
  have hb := h.statusBits
  simp only [Apart, List.pairwise_cons, List.mem_cons, forall_eq_or_imp, List.not_mem_nil, false_imp_iff,
    implies_true, and_true] at ha hb
  obtain ⟨⟨a1, a2, a3, a4, a5, a6⟩, ⟨a7, a8, a9, a10, a11⟩, ⟨a12, a13, a14, a15⟩, ⟨a16, a17, a18⟩,
    ⟨a19, a20⟩, a21, _⟩ := ha
  obtain ⟨b1, b2, b3, b4, b5, b6, b7⟩ := hb
  have sw {m k : Byte} (hm : m &&& k = 0#8) (b : Bool) : testFlag (flagIf b k) m = false :=
    testFlag_flagIf_apart (by rw [BitVec.and_comm]; exact hm) b
  refine ⟨?_, ?_, ?_, ?_, ?_, ?_, ?_⟩ <;>
    simp only [statusFlags, testFlag_or, testFlag_flagIf_self, testFlag_flagIf_apart, sw, b1, b2, b3, b4,
      b5, b6, b7, a1, a2, a3, a4, a5, a6, a7, a8, a9, a10, a11, a12, a13, a14, a15, a16, a17, a18, a19,
      a20, a21, Bool.false_or, Bool.or_false, ne_eq, not_false_eq_true]

theorem recordIdle_statusRecord {s : State} (h : s.cfg.Legal) :
    recordIdle s.cfg (statusRecord s) = !s.brg.outstanding := by
  rw [recordIdle, recordFlags_statusRecord h]; exact (testFlag_statusFlags h).2.2.2.2.2.1

theorem recordEpof_statusRecord {s : State} (h : s.cfg.Legal) :
    recordEpof s.cfg (statusRecord s) = s.brg.epof := by
  rw [recordEpof, recordFlags_statusRecord h]; exact (testFlag_statusFlags h).2.2.2.2.2.2

theorem recordVpp_statusRecord {s : State} (h : s.cfg.Legal) :
    recordVpp s.cfg (statusRecord s) = s.vppIn := by
  rw [recordVpp, recordFlags_statusRecord h]; exact (testFlag_statusFlags h).2.2.1

theorem recordTail_statusRecord (s : State) : recordTail (statusRecord s) = s.brg.resq := by
  simp [recordTail, statusRecord, Config.statusFixedLen]

/-- A record read whole is never short (R221). -/
theorem statusRecord_length (s : State) :
    (statusRecord s).length = Config.statusFixedLen + s.brg.resq.length := by
  simp [statusRecord]

/-! ### Comm values -/

/-- What is left of an option under a mask. -/
theorem optMask_and (b : Bool) (m k : Half) : optMask b m &&& k = optMask b (m &&& k) := by
  cases b <;> simp [optMask]

/-- The fields of a comm value, each under its own mask (R113, R117). -/
theorem commValue_fields {c : Config} (h : c.Legal) {code : Half} (hc : code &&& c.comm.codeMask = code)
    (o : CommOpts) (b3 : Bool) :
    (commValue c code o b3).clear c.commReserved = true ∧
      commValue c code o b3 &&& c.comm.codeMask = code ∧ decodeOpts c (commValue c code o b3) = o ∧
      decodeB3 c (commValue c code o b3) = b3 := by
  have ha := h.options
  simp only [Apart, List.pairwise_cons, List.mem_cons, forall_eq_or_imp, List.not_mem_nil, false_imp_iff,
    implies_true, and_true] at ha
  obtain ⟨⟨a1, a2, a3, a4, a5⟩, ⟨a6, a7, a8, a9⟩, ⟨a10, a11, a12⟩, ⟨a13, a14⟩, a15, _⟩ := ha
  have nz : ∀ m ∈ [c.comm.optIM, c.comm.optB3, c.comm.optRA, c.comm.optAC, c.comm.optSPU],
      m ≠ 0#16 := by
    intro m hm
    obtain ⟨k, hk, rfl⟩ := h.optionBits m hm
    intro h0
    have := congrArg (fun v : Half => v.getLsbD k) h0
    simp [hk] at this
  simp only [List.mem_cons, forall_eq_or_imp, List.not_mem_nil, false_imp_iff, implies_true,
    and_true] at nz
  obtain ⟨n1, n2, n3, n4, n5⟩ := nz
  have cz {m : Half} (hm : c.comm.codeMask &&& m = 0#16) : code &&& m = 0#16 := by
    rw [← hc, BitVec.and_assoc, hm]; simp
  have sw {m k : Half} (hm : m &&& k = 0#16) : k &&& m = 0#16 := by rw [BitVec.and_comm]; exact hm
  have oz (b : Bool) : optMask b 0#16 = 0#16 := by cases b <;> rfl
  have sees (m : Half) (v : Half) (b : Bool) (hm : m ≠ 0#16) (hv : v &&& m = optMask b m) :
      (!v.clear m) = b := by
    rw [Half.clear, hv]; cases b <;> simp [optMask, hm]
  refine ⟨?_, ?_, ?_, ?_⟩
  · rw [Half.clear, beq_iff_eq]
    apply BitVec.eq_of_getLsbD_eq
    intro i hi
    have hci : code.getLsbD i = true → c.comm.codeMask.getLsbD i = true := by
      intro hx; rw [← hc] at hx; simpa using (by simpa using hx : _ ∧ _).2
    have hoi (b : Bool) (m : Half) : (optMask b m).getLsbD i = (b && m.getLsbD i) := by
      cases b <;> simp [optMask]
    simp only [commValue, Config.commReserved, BitVec.getLsbD_and, BitVec.getLsbD_or, BitVec.getLsbD_not,
      hi, decide_true, Bool.true_and, hoi, BitVec.getLsbD_zero]
    rw [Bool.and_eq_false_imp]
    intro hv
    simp only [Bool.or_eq_true, Bool.and_eq_true] at hv
    rcases hv with ((((hv | ⟨-, hv⟩) | ⟨-, hv⟩) | ⟨-, hv⟩) | ⟨-, hv⟩) | ⟨-, hv⟩
    · simp [hci hv]
    all_goals simp [hv]
  · simp only [commValue, BitVec.and_or_distrib_right, optMask_and, hc, sw a1, sw a2, sw a3, sw a4, sw a5,
      oz, BitVec.or_zero]
  · obtain ⟨im, spu, ra, ac⟩ := o
    simp only [decodeOpts, CommOpts.mk.injEq]
    refine ⟨?_, ?_, ?_, ?_⟩ <;> (apply sees; assumption) <;>
      simp [commValue, BitVec.and_or_distrib_right, optMask_and, oz, cz, a1, a3, a4, a5, a7, a8, a9, a10,
        a11, a12, a13, a14, a15, sw a6, sw a7, sw a8, sw a9, sw a13, sw a14, sw a15]
  · apply sees _ _ _ n2
    simp [commValue, BitVec.and_or_distrib_right, optMask_and, oz, cz a2, a6, sw a10, sw a11, sw a12]

end Sys2Proof.Laws
end

