-- ==== Sys2Proof/Laws/Decode.lean ====
section
/-! SUPPORT. The three fields of a record word (30_encoding.md R110) and the bytes of its index. -/

namespace Sys2Proof.Laws

/-- A bit of a record word is a bit of one of its three fields. -/
theorem cmdWord_getLsbD (c : Byte) (v x : Half) (i : Nat) :
    (cmdWord c v x).getLsbD i =
      if i < 16 then x.getLsbD i else if i < 32 then v.getLsbD (i - 16) else c.getLsbD (i - 32) := by
  have h : (cmdWord c v x).getLsbD i = (c ++ v ++ x : BitVec (8 + 16 + 16)).getLsbD i := rfl
  rw [h, BitVec.getLsbD_append]
  by_cases h₁ : i < 16
  · simp [h₁]
  · rw [BitVec.getLsbD_append]
    by_cases h₂ : i < 32
    · simp [h₁, h₂, show i - 16 < 16 by omega]
    · simp [h₁, h₂, show ¬ i - 16 < 16 by omega, show i - 16 - 16 = i - 32 by omega]

@[simp] theorem cmdWord_cat (c : Byte) (v x : Half) : (cmdWord c v x).cat = c := by
  apply BitVec.eq_of_getLsbD_eq
  intro i hi
  simp only [CmdWord.cat, BitVec.getLsbD_extractLsb', cmdWord_getLsbD, hi, decide_true,
    Bool.true_and]
  rw [if_neg (by omega), if_neg (by omega), Nat.add_sub_cancel_left]

@[simp] theorem cmdWord_value (c : Byte) (v x : Half) : (cmdWord c v x).value = v := by
  apply BitVec.eq_of_getLsbD_eq
  intro i hi
  simp only [CmdWord.value, BitVec.getLsbD_extractLsb', cmdWord_getLsbD, hi, decide_true,
    Bool.true_and]
  rw [if_neg (by omega), if_pos (by omega), Nat.add_sub_cancel_left]

@[simp] theorem cmdWord_index (c : Byte) (v x : Half) : (cmdWord c v x).index = x := by
  apply BitVec.eq_of_getLsbD_eq
  intro i hi
  simp only [CmdWord.index, BitVec.getLsbD_extractLsb', cmdWord_getLsbD, hi, decide_true,
    Bool.true_and]
  rw [if_pos (by omega), Nat.zero_add]

/-- A record word is its three fields. -/
theorem cmdWord_fields (w : CmdWord) : cmdWord w.cat w.value w.index = w := by
  apply BitVec.eq_of_getLsbD_eq
  intro i hi
  rw [cmdWord_getLsbD]
  split
  · simp_all [CmdWord.index]
  · split
    · simp only [CmdWord.value, BitVec.getLsbD_extractLsb']
      rw [show 16 + (i - 16) = i by omega]
      simp [show i - 16 < 16 by omega]
    · simp only [CmdWord.cat, BitVec.getLsbD_extractLsb']
      rw [show 32 + (i - 32) = i by omega]
      simp [show i - 32 < 8 by omega]

@[simp] theorem zext16_low (b : Byte) : (zext16 b).low = b := by
  apply BitVec.eq_of_getLsbD_eq
  intro i hi
  simp [Half.low, zext16, hi, show i < 16 by omega]

@[simp] theorem zext16_high (b : Byte) : (zext16 b).high = 0#8 := by
  apply BitVec.eq_of_getLsbD_eq
  intro i hi
  simp [Half.high, zext16]

/-- A half-word whose high byte is 0 is its low byte. -/
theorem zext16_of_high {h : Half} (hh : h.high = 0#8) : zext16 h.low = h := by
  apply BitVec.eq_of_getLsbD_eq
  intro i hi
  by_cases h8 : i < 8
  · simp [zext16, Half.low, h8, hi]
  · have := congrArg (fun v : Byte => v.getLsbD (i - 8)) hh
    simp only [Half.high, BitVec.getLsbD_extractLsb', show 8 + (i - 8) = i by omega,
      show i - 8 < 8 by omega, decide_true, Bool.true_and] at this
    rw [this]
    simp [zext16, Half.low, h8]

end Sys2Proof.Laws
end

