-- ==== Sys2Proof/Laws/Ops.lean ====
section
/-! SUPPORT. One lemma per shared operation that says everything it can do; provers cite these instead of
unfolding the operation. -/

namespace Sys2Proof.Laws

open Sys2Proof.Machine

/-! ### Sequencing of outcomes -/

@[simp] theorem andThen_next (s : State) (k : State → Out) : andThen (.next s) k = k s := rfl
@[simp] theorem andThen_fault (f : Fault) (k : State → Out) : andThen (.fault f) k = .fault f := rfl
@[simp] theorem andThen_refused (r : Refusal) (k : State → Out) :
    andThen (.refused r) k = .refused r := rfl

theorem andThen_eq_next {o : Out} {k : State → Out} {t : State} :
    andThen o k = .next t ↔ ∃ s, o = .next s ∧ k s = .next t := by
  cases o <;> simp

theorem andThen_assoc (o : Out) (k l : State → Out) :
    andThen (andThen o k) l = andThen o fun s => andThen (k s) l := by
  cases o <;> rfl

@[simp] theorem ifSound_none {s : State} (h : s.brg.fault = .none) (o : Out) :
    ifSound s o = o := by simp [ifSound, h]

@[simp] theorem ifSound_desync {s : State} (h : s.brg.fault = .desync) (o : Out) :
    ifSound s o = .fault .desync := by simp [ifSound, h]

/-- A bridge that answers is not desynchronised. -/
theorem ifSound_eq_next {s t : State} {o : Out} :
    ifSound s o = .next t ↔ s.brg.fault = .none ∧ o = .next t := by
  cases h : s.brg.fault <;> simp [h]

/-! ### Acceptance of records -/

/-- All a comm record can do when it arrives. -/
theorem acceptComm_eq_next {o : CommOpts} {c : Instr} {s t : State} :
    acceptComm o c s = .next t ↔ s.brg.fault = .none ∧
      (s.brg.outstanding = true ∧ t = setDesync s ∨
        s.brg.outstanding = false ∧ o.im = true ∧ o.ac = false ∧ (o.spu && o.ra) = false ∧
          (s.brg.halt = true ∧ t = { s with brg := { s.brg with cbuf := s.brg.cbuf ++ [c] } } ∨
            s.brg.halt = false ∧ t = startCommand c s)) := by
  unfold acceptComm
  rw [ifSound_eq_next]
  refine and_congr_right fun _ => ?_
  cases s.brg.outstanding <;> cases o.im <;> cases o.ac <;> cases (o.spu && o.ra) <;>
    cases s.brg.halt <;> simp [eq_comm]

/-- All a mode record can do. -/
theorem acceptMode_eq_next {f : Brg → Brg} {s t : State} :
    acceptMode f s = .next t ↔ s.brg.fault = .none ∧
      (s.brg.outstanding = true ∧ t = setDesync s ∨
        s.brg.outstanding = false ∧ t = { s with brg := f s.brg }) := by
  unfold acceptMode
  rw [ifSound_eq_next]
  refine and_congr_right fun _ => ?_
  cases s.brg.outstanding <;> simp [eq_comm]

/-- When a flush breaks the hazard rule. -/
theorem flushBlocked_eq_true {s : State} :
    flushBlocked s = true ↔ s.brg.exec = .busy ∨
      s.brg.cbuf ≠ [] ∧ s.cfg.readings.waitingBlocksFlush = true := by
  simp [flushBlocked]

/-- When a flush empties its buffer. -/
theorem flushBlocked_eq_false {s : State} :
    flushBlocked s = false ↔ s.brg.exec = .idle ∧
      (s.brg.cbuf = [] ∨ s.cfg.readings.waitingBlocksFlush = false) := by
  unfold flushBlocked
  cases s.brg.exec <;> cases s.brg.cbuf <;> simp

/-- A flush that breaks the hazard rule meets an outstanding command. -/
theorem outstanding_of_flushBlocked {s : State} (h : flushBlocked s = true) :
    s.brg.outstanding = true := by
  rcases flushBlocked_eq_true.mp h with h | ⟨h, _⟩ <;> simp [Brg.outstanding, h]

/-- All a flush record can do. -/
theorem acceptFlush_eq_next {f : Brg → Brg} {s t : State} :
    acceptFlush f s = .next t ↔ s.brg.fault = .none ∧
      (flushBlocked s = true ∧ t = setDesync s ∨
        flushBlocked s = false ∧ t = { s with brg := f s.brg }) := by
  unfold acceptFlush
  rw [ifSound_eq_next]
  refine and_congr_right fun _ => ?_
  cases flushBlocked s <;> simp [eq_comm]

/-! ### Buffers -/

/-- `RBUF` grows by one byte, within its capacity. -/
theorem pushRead_eq_next {e : Byte} {s t : State} {k : State → Out} :
    pushRead e s k = .next t ↔ s.brg.rbuf.length < s.cfg.bufCap ∧
      k { s with brg := { s.brg with rbuf := s.brg.rbuf ++ [e] } } = .next t := by
  unfold pushRead
  split <;> simp_all

/-- The bulk write: what it needs, and both things it can do. -/
theorem outTransfer_eq_next {bytes : List Byte} {s t : State} :
    outTransfer bytes s = .next t ↔ s.brg.fault = .none ∧ bytes.isEmpty = false ∧
      (s.brg.outstanding = true ∧ t = setDesync (s.logOut bytes) ∨
        s.brg.outstanding = false ∧ s.brg.wbuf.length + bytes.length ≤ s.cfg.bufCap ∧
          t = { s with brg := { s.brg with wbuf := s.brg.wbuf ++ bytes } }.logOut bytes) := by
  unfold outTransfer
  rw [ifSound_eq_next]
  refine and_congr_right fun _ => ?_
  cases bytes.isEmpty <;> cases s.brg.outstanding <;> simp [eq_comm]
  split <;> simp_all [eq_comm]

/-- The status read drains the tail. -/
theorem statusTransfer_eq_next {s t : State} {k : List Byte → State → Out} :
    statusTransfer s k = .next t ↔ s.brg.fault = .none ∧
      k (statusRecord s) ({ s with brg := { s.brg with resq := [] } }.logStatus) = .next t := by
  unfold statusTransfer
  rw [ifSound_eq_next]

/-- The bulk read takes the oldest bytes. -/
theorem inTransfer_eq_next {n : Nat} {s t : State} {k : List Byte → State → Out} :
    inTransfer n s k = .next t ↔ s.brg.fault = .none ∧ n ≠ 0 ∧
      k (s.brg.rbuf.take n)
        ({ s with brg := { s.brg with rbuf := s.brg.rbuf.drop n } }.logIn
          (s.brg.rbuf.take n)) = .next t := by
  unfold inTransfer
  rw [ifSound_eq_next]
  refine and_congr_right fun _ => ?_
  by_cases h : n = 0 <;> simp [h]

/-! ### The WIRE: a request changes the WIRE, the counter of draws and the trace, and nothing else -/

theorem wireLevel_frame (b : Bool) (s : State) :
    ∃ w d, (wireLevel b s).2 = { s with wire := w, draws := d } := by
  unfold wireLevel
  split
  · exact ⟨_, _, rfl⟩
  · split
    · split <;> exact ⟨_, _, rfl⟩
    · exact ⟨_, _, rfl⟩

theorem wireSlot_frame (b : Bool) (s : State) :
    ∃ w d, (wireSlot b s).2 =
      { s with wire := w, draws := d, trace := .slot b (wireSlot b s).1 :: s.trace } := by
  obtain ⟨w, d, h⟩ := wireLevel_frame b s
  exact ⟨w, d, by simp [wireSlot, State.log, h]⟩

theorem wireReset_frame (s : State) :
    ∃ w d, (wireReset s).2 =
      { s with wire := w, draws := d, trace := .wireReset s.brg.speed :: s.trace } := by
  unfold wireReset State.log
  dsimp only
  split <;> exact ⟨_, _, rfl⟩

@[simp] theorem wireSlot_brg (b : Bool) (s : State) : (wireSlot b s).2.brg = s.brg := by
  obtain ⟨w, d, h⟩ := wireSlot_frame b s; rw [h]
@[simp] theorem wireSlot_seq (b : Bool) (s : State) : (wireSlot b s).2.seq = s.seq := by
  obtain ⟨w, d, h⟩ := wireSlot_frame b s; rw [h]
@[simp] theorem wireSlot_cfg (b : Bool) (s : State) : (wireSlot b s).2.cfg = s.cfg := by
  obtain ⟨w, d, h⟩ := wireSlot_frame b s; rw [h]
@[simp] theorem wireReset_cfg (s : State) : (wireReset s).2.cfg = s.cfg := by
  obtain ⟨w, d, h⟩ := wireReset_frame s; rw [h]
@[simp] theorem wireSlot_vppIn (b : Bool) (s : State) : (wireSlot b s).2.vppIn = s.vppIn := by
  obtain ⟨w, d, h⟩ := wireSlot_frame b s; rw [h]
@[simp] theorem wireReset_brg (s : State) : (wireReset s).2.brg = s.brg := by
  obtain ⟨w, d, h⟩ := wireReset_frame s; rw [h]
@[simp] theorem wireReset_seq (s : State) : (wireReset s).2.seq = s.seq := by
  obtain ⟨w, d, h⟩ := wireReset_frame s; rw [h]

/-! ### Raising an error -/

/-- Where a raised error goes: to a recovery attempt, past a recovery attempt that drops it, or to the
HOST. -/
theorem raiseError_cases (e : ErrorKind) (s : State) :
    (∃ rest, handlerOf 0 s.seq.phase = .recover rest ∧ raiseError e s = enterRecovery e rest s) ∨
    (∃ rest, handlerOf 0 s.seq.phase = .drop rest ∧ raiseError e s = setPhase rest s) ∨
    (handlerOf 0 s.seq.phase = .host ∧ raiseError e s = answerError e s) := by
  unfold raiseError
  cases handlerOf 0 s.seq.phase <;> simp

/-- A Transport call without returned bytes: its four fates. -/
theorem transport_eq_next {fate : Fate} {effect k : State → Out} {s t : State} :
    transport fate effect k s = .next t ↔
      fate = .lost ∧ t = raiseError .transportError s ∨
      (fate = .ok ∧ ∃ u, effect s = .next u ∧ k u = .next t) ∨
      ((fate = .delivered ∨ ∃ n, fate = .truncated n) ∧
        ∃ u, effect s = .next u ∧ t = raiseError .transportError u) := by
  cases fate <;> simp [transport, andThen_eq_next, @eq_comm _ t]

end Sys2Proof.Laws
end

