-- ==== Sys2Proof/Laws/PerInstr.lean ====
section
/-! SUPPORT. Facts about every instruction as syntax, one lemma per constructor (LAWS.json names the
family). -/

namespace Sys2Proof.Laws.EncodedCategory

/-- The first byte of the record word is the code of the instruction's category, under every configuration
(30_encoding.md R110, R111). -/
def Statement (i : Instr) : Prop := ∀ c : Config, (encode c i).cat = c.categoryCode i.category

theorem ctlResetDevice : Statement .ctlResetDevice := fun _ => cmdWord_cat _ _ _
theorem ctlResumeExe : Statement .ctlResumeExe := fun _ => cmdWord_cat _ _ _
theorem ctlHaltExe : Statement .ctlHaltExe := fun _ => cmdWord_cat _ _ _
theorem ctlFlushComm : Statement .ctlFlushComm := fun _ => cmdWord_cat _ _ _
theorem ctlFlushRead : Statement .ctlFlushRead := fun _ => cmdWord_cat _ _ _
theorem ctlFlushWrite : Statement .ctlFlushWrite := fun _ => cmdWord_cat _ _ _
theorem commSetDuration (o : CommOpts) (type : PulseKind) (code : Byte) :
    Statement (.commSetDuration o type code) := fun _ => cmdWord_cat _ _ _
theorem commBitIo (o : CommOpts) (d : Bool) :
    Statement (.commBitIo o d) := fun _ => cmdWord_cat _ _ _
theorem commPulse (o : CommOpts) (type : PulseKind) :
    Statement (.commPulse o type) := fun _ => cmdWord_cat _ _ _
theorem commOnewireReset (o : CommOpts) (se : Bool) (speed : Byte) :
    Statement (.commOnewireReset o se speed) := fun _ => cmdWord_cat _ _ _
theorem commByteIo (o : CommOpts) (x : Byte) :
    Statement (.commByteIo o x) := fun _ => cmdWord_cat _ _ _
theorem commBlockIo (o : CommOpts) (n : Half) :
    Statement (.commBlockIo o n) := fun _ => cmdWord_cat _ _ _
theorem commSearchAccess (o : CommOpts) (index : Half) :
    Statement (.commSearchAccess o index) := fun _ => cmdWord_cat _ _ _
theorem modePulseEn (spue prge : Bool) :
    Statement (.modePulseEn spue prge) := fun _ => cmdWord_cat _ _ _
theorem modeSpeedChangeEn (spce : Bool) :
    Statement (.modeSpeedChangeEn spce) := fun _ => cmdWord_cat _ _ _
theorem modeBusSpeed (speed : Byte) :
    Statement (.modeBusSpeed speed) := fun _ => cmdWord_cat _ _ _
theorem modePullupDuration (code : Byte) :
    Statement (.modePullupDuration code) := fun _ => cmdWord_cat _ _ _
theorem modeSlewRate (code : Byte) :
    Statement (.modeSlewRate code) := fun _ => cmdWord_cat _ _ _
theorem modePulseDuration (code : Byte) :
    Statement (.modePulseDuration code) := fun _ => cmdWord_cat _ _ _
theorem modeTiming0 (code : Byte) :
    Statement (.modeTiming0 code) := fun _ => cmdWord_cat _ _ _
theorem modeTiming1 (code : Byte) :
    Statement (.modeTiming1 code) := fun _ => cmdWord_cat _ _ _

end Sys2Proof.Laws.EncodedCategory
end

