-- ==== Sys2Proof/Tests/Slice0.lean ====
section
/-! SUPPORT. Small checks of the model against the spec's own examples: spec/95_test_vectors.md unless
another rule is named. -/

namespace Sys2Proof.Tests

open Sys2Proof.Machine Sys2Proof.Laws

/-- The configuration of the vectors. -/
abbrev ref : Config := Config.reference

/-! ### Helpers -/

/-- Does the outcome answer a next state with this property? -/
def nextIs (o : Out) (p : State → Bool) : Bool :=
  match o with
  | .next s => p s
  | .fault _ => false
  | .refused _ => false

/-- Is the outcome this refusal? -/
def refusedBy (o : Out) (r : Refusal) : Bool :=
  match o with
  | .next _ => false
  | .fault _ => false
  | .refused r' => r == r'

/-- Is the outcome the fault `DESYNC`? -/
def desynced (o : Out) : Bool :=
  match o with
  | .next _ => false
  | .fault .desync => true
  | .refused _ => false

/-- Did the decoder read this instruction? -/
def decodesTo (w : CmdWord) (i : Instr) : Bool :=
  match decode ref w with
  | .ok j => i == j
  | .error _ => false

/-- Did the decoder reject the word by this name? -/
def rejectedAs (w : CmdWord) (e : DecodeError) : Bool :=
  match decode ref w with
  | .ok _ => false
  | .error e' => e == e'

/-- A bridge after the initialization sequence, with the unspecified registers at given values
(section 3 of the vectors). -/
def afterInit : Brg :=
  { Brg.powerOn ref 0 with
    epof := false, en := 0x02#8, spud := 0x00#8, ppd := 0x40#8, slew := 0x05#8,
    tp0 := 0x06#8, tp1 := 0x07#8, curcmd := 0x001B#16 }

/-- A machine with that bridge, an open idle session and read slots answered by `levels`. -/
def ready (levels : List Bool) : State :=
  { State.reset with
    brg := afterInit, seq := { Seq.reset ref with handle := .opened },
    wire := .oracle [] levels }

/-- The same with another bridge. -/
def withBrg (levels : List Bool) (f : Brg → Brg) : State :=
  { ready levels with brg := f afterInit }

/-- Options with `IM` and nothing else. -/
def im : CommOpts := { im := true, spu := false, ra := false, ac := false }

/-! ### WellFormed: an ill-formed term for each check -/

theorem wf_refuses_set_duration_spu :
    Instr.wellFormed ref (.commSetDuration { im with spu := true } .spu 0x2F#8) = false := by decide
theorem wf_refuses_set_duration_ra :
    Instr.wellFormed ref (.commSetDuration { im with ra := true } .prg 0x40#8) = false := by decide
theorem wf_refuses_pulse_spu :
    Instr.wellFormed ref (.commPulse { im with spu := true } .spu) = false := by decide
theorem wf_refuses_reset_ra :
    Instr.wellFormed ref (.commOnewireReset { im with ra := true } true 0x00#8) = false := by decide
theorem wf_refuses_reset_speed :
    Instr.wellFormed ref (.commOnewireReset im true 0x03#8) = false := by decide
theorem wf_refuses_speed_without_select :
    Instr.wellFormed ref (.commOnewireReset im false 0x01#8) = false := by decide
theorem wf_refuses_empty_block : Instr.wellFormed ref (.commBlockIo im 0x0000#16) = false := by decide
theorem wf_refuses_long_block : Instr.wellFormed ref (.commBlockIo im 0x0041#16) = false := by decide
theorem wf_refuses_bus_speed : Instr.wellFormed ref (.modeBusSpeed 0x03#8) = false := by decide
theorem wf_accepts_full_block : Instr.wellFormed ref (.commBlockIo im 0x0040#16) = true := by decide

/-! ### Decoding: the words of section 2 (V2.1 to V2.25), written out -/

theorem dec_reset_device : decodesTo 0x0000000000#40 .ctlResetDevice = true := by decide
theorem dec_reset_device_index : decodesTo 0x0000001234#40 .ctlResetDevice = true := by decide
theorem dec_resume : decodesTo 0x0000020000#40 .ctlResumeExe = true := by decide
theorem dec_halt : decodesTo 0x0000030000#40 .ctlHaltExe = true := by decide
theorem dec_flush_comm : decodesTo 0x0000070000#40 .ctlFlushComm = true := by decide
theorem dec_flush_read : decodesTo 0x0000070001#40 .ctlFlushRead = true := by decide
theorem dec_flush_write : decodesTo 0x0000070002#40 .ctlFlushWrite = true := by decide
theorem dec_onewire_reset :
    decodesTo 0x01004B0002#40 (.commOnewireReset im true 0x02#8) = true := by decide
theorem dec_bit_zero : decodesTo 0x0100210000#40 (.commBitIo im false) = true := by decide
theorem dec_bit_one : decodesTo 0x0100290000#40 (.commBitIo im true) = true := by decide
theorem dec_byte : decodesTo 0x01005300F0#40 (.commByteIo im 0xF0#8) = true := by decide
theorem dec_block : decodesTo 0x0100750040#40 (.commBlockIo im 0x0040#16) = true := by decide
theorem dec_set_pull_up :
    decodesTo 0x010013002F#40 (.commSetDuration im .spu 0x2F#8) = true := by decide
theorem dec_set_program :
    decodesTo 0x01001B0040#40 (.commSetDuration im .prg 0x40#8) = true := by decide
theorem dec_pulse : decodesTo 0x0100310000#40 (.commPulse im .spu) = true := by decide
theorem dec_pulse_program : decodesTo 0x0100390000#40 (.commPulse im .prg) = true := by decide
theorem dec_byte_spu :
    decodesTo 0x0110530044#40 (.commByteIo { im with spu := true } 0x44#8) = true := by decide
theorem dec_byte_ra :
    decodesTo 0x0101530044#40 (.commByteIo { im with ra := true } 0x44#8) = true := by decide
theorem dec_byte_deferred :
    decodesTo 0x0100520044#40 (.commByteIo { im with im := false } 0x44#8) = true := by decide
theorem dec_byte_ac :
    decodesTo 0x0104530044#40 (.commByteIo { im with ac := true } 0x44#8) = true := by decide
theorem dec_search : decodesTo 0x0100F50000#40 (.commSearchAccess im 0#16) = true := by decide
theorem dec_pulse_en : decodesTo 0x0200000002#40 (.modePulseEn false true) = true := by decide
theorem dec_speed_change : decodesTo 0x0200010001#40 (.modeSpeedChangeEn true) = true := by decide
theorem dec_bus_speed : decodesTo 0x0200020002#40 (.modeBusSpeed 0x02#8) = true := by decide
theorem dec_pullup_duration :
    decodesTo 0x020003002F#40 (.modePullupDuration 0x2F#8) = true := by decide
theorem dec_slew : decodesTo 0x0200040005#40 (.modeSlewRate 0x05#8) = true := by decide
theorem dec_pulse_duration :
    decodesTo 0x0200050040#40 (.modePulseDuration 0x40#8) = true := by decide
theorem dec_timing0 : decodesTo 0x0200060004#40 (.modeTiming0 0x04#8) = true := by decide
theorem dec_timing1 : decodesTo 0x0200070004#40 (.modeTiming1 0x04#8) = true := by decide

theorem rej_flush_target : rejectedAs 0x0000070003#40 .flushTarget = true := by decide
theorem rej_selector : rejectedAs 0x0000010000#40 .selector = true := by decide
theorem rej_speed : rejectedAs 0x01004B0003#40 .operand = true := by decide
theorem rej_bit_index : rejectedAs 0x0100290001#40 .operand = true := by decide
theorem rej_byte_b3 : rejectedAs 0x01005B00F0#40 .forbiddenOption = true := by decide
theorem rej_byte_high : rejectedAs 0x01005301F0#40 .operand = true := by decide
theorem rej_block_zero : rejectedAs 0x0100750000#40 .operand = true := by decide
theorem rej_block_long : rejectedAs 0x0100750041#40 .operand = true := by decide
theorem rej_pulse_spu : rejectedAs 0x0110310000#40 .forbiddenOption = true := by decide
theorem rej_pulse_en : rejectedAs 0x0200000004#40 .modeValue = true := by decide
theorem rej_bus_speed : rejectedAs 0x0200020003#40 .modeValue = true := by decide
theorem rej_slew_high : rejectedAs 0x0200040105#40 .modeValue = true := by decide
theorem rej_mode_id : rejectedAs 0x0200080000#40 .modeId = true := by decide
theorem rej_category : rejectedAs 0x0300000000#40 .category = true := by decide
theorem rej_reserved_bits : rejectedAs 0x0102530044#40 .reservedBits = true := by decide
theorem rej_comm_code : rejectedAs 0x0100610000#40 .commCode = true := by decide

/-! ### The first step after reset runs the record laid for it -/

/-- Is the next state one in which the machine has no move left? -/
def ranOut (s : State) : Bool := s.agenda.isEmpty

/-- V3.1: from model start a device reset clears `EPOF`. -/
theorem step_reset_device :
    nextIs (step (State.reset.withFetchWord 40 0x0000000000))
      (fun s => s.brg.epof == false && s.brg.en == 0x00#8 && statusFlags s == 0x20#8 && ranOut s)
      = true := by decide

/-- The unoptioned record of the table has `IM` = 0 and is refused by name (R179). -/
theorem step_byte_deferred :
    refusedBy (step (State.reset.withFetchWord 40 0x0100520000)) .notImmediate = true := by decide

/-- A reserved word is refused (R122). -/
theorem step_reserved :
    refusedBy (step (State.reset.withFetchWord 40 0x0300000000)) .reservedEncoding = true := by
  decide

/-! ### Control commands -/

/-- V3.2: a halt ends a running `COMM_PULSE`, which completes. -/
theorem halt_ends_pulse :
    nextIs (exec .ctlHaltExe (withBrg [] fun b => { b with
        en := 0x03#8, exec := .busy, cur := some (.commPulse im .spu), stage := .pulsing,
        pulse := .spu .infinite }))
      (fun s => statusFlags s == 0x30#8 && s.brg.resq == [0x00#8]) = true := by decide

/-- P7: a halt lets a byte command run on. -/
theorem halt_lets_byte_run :
    nextIs (exec .ctlHaltExe (withBrg [] fun b => { b with
        exec := .busy, cur := some (.commByteIo im 0xFF#8) }))
      (fun s => s.brg.exec == .busy && s.brg.halt && s.brg.resq == []) = true := by decide

/-- V3.3: a record accepted while halted waits, and `IDLE` is 0. -/
theorem halted_record_waits :
    nextIs (exec (.commByteIo im 0xFF#8) (withBrg [] fun b => { b with halt := true }))
      (fun s => statusFlags s == 0x10#8 && statusByte s 13 == 0x01#8) = true := by decide

/-- V3.4: resume, and the waiting record starts in a later step of the bridge. -/
theorem resume_starts_waiting :
    nextIs (runMoves [.record 0x0000020000#40, .brg] (withBrg [] fun b => { b with
        halt := true, cbuf := [.commByteIo im 0xFF#8] }))
      (fun s => s.brg.exec == .busy && s.brg.cbuf == [] && s.brg.curcmd == 0x0053#16) = true := by
  decide

/-- A bridge with a halted record waiting, on a machine that follows R154 or R380 for a flush. -/
def waiting (blocks : Bool) : State :=
  { withBrg [] (fun b => { b with halt := true, cbuf := [.commByteIo im 0xFF#8] }) with
    cfg := { ref with readings := { ref.readings with waitingBlocksFlush := blocks } } }

/-- R154: a flush of the comm buffer discards a waiting record. -/
theorem flush_comm_discards :
    nextIs (exec .ctlFlushComm (waiting false))
      (fun s => s.brg.cbuf == [] && statusFlags s == 0x30#8) = true := by decide

/-- R380: the same flush meets an outstanding command. -/
theorem flush_comm_breaks_hazard :
    nextIs (exec .ctlFlushComm (waiting true))
      (fun s => s.brg.fault == .desync && s.brg.cbuf.length == 1) = true := by decide

/-- V3.6: a flush while busy breaks the hazard rule. -/
theorem flush_read_busy :
    nextIs (exec .ctlFlushRead (withBrg [] fun b => { b with
        exec := .busy, cur := some (.commByteIo im 0xFF#8), rbuf := [0x01#8] }))
      (fun s => s.brg.fault == .desync && s.brg.rbuf == [0x01#8]) = true := by decide

/-- V3.5. -/
theorem flush_write_empties :
    nextIs (exec .ctlFlushWrite (withBrg [] fun b => { b with wbuf := [0xAA#8, 0xBB#8] }))
      (fun s => s.brg.wbuf == [] && statusByte s 14 == 0x00#8) = true := by decide

/-! ### Comm commands, run to their completion -/

/-- V3.7: a reset cycle with a slave present. -/
theorem onewire_reset_present :
    nextIs (runMoves [.record 0x01004B0000#40, .brg, .brg]
        { ready [] with wire := .oracle [{ presence := true, short := false, alarm := false }] [] })
      (fun s => s.brg.resq == [0x00#8] && statusByte s 11 == 0x4B#8 && statusFlags s == 0x20#8)
      = true := by decide

/-- V3.9: a shorted bus without presence; V3.10: the speed is latched. -/
theorem onewire_reset_short :
    nextIs (runMoves [.record 0x01004B0002#40, .brg, .brg]
        { ready [] with wire := .oracle [{ presence := false, short := true, alarm := false }] [] })
      (fun s => s.brg.resq == [0x03#8] && s.brg.speed == 0x02#8
        && s.trace.contains (.wireReset 0x02#8)) = true := by decide

/-- V3.11. -/
theorem bit_read_zero :
    nextIs (runMoves [.record 0x0100290000#40, .brg, .brg] (ready [false]))
      (fun s => s.brg.rbuf == [0x00#8] && s.brg.resq == [0x00#8]) = true := by decide

/-- V3.12: a write-0 slot answers 0 and asks the bus nothing. -/
theorem bit_write_zero :
    nextIs (runMoves [.record 0x0100210000#40, .brg, .brg] (ready [true]))
      (fun s => s.brg.rbuf == [0x00#8] && s.wire == .oracle [] [true]) = true := by decide

/-- V3.14: a slave sends 0x28, LSB first. -/
theorem byte_read :
    nextIs (runMoves ([.record 0x01005300FF#40] ++ List.replicate 9 .brg)
        (ready [false, false, false, true, false, true, false, false]))
      (fun s => s.brg.rbuf == [0x28#8] && s.brg.resq == [0x00#8] && s.brg.exec == .idle)
      = true := by decide

/-- V3.15: a slave pulls slot 4 low; the four slots that write 0 are not read slots. -/
theorem byte_echo_mismatch :
    nextIs (runMoves ([.record 0x01005300F0#40] ++ List.replicate 9 .brg)
        (ready [false, true, true, true]))
      (fun s => s.brg.rbuf == [0xE0#8]) = true := by decide

/-- V3.16. -/
theorem block_two_bytes :
    nextIs (runMoves ([.record 0x0100750002#40] ++ List.replicate 17 .brg)
        { ready (List.replicate 16 true) with
          brg := { afterInit with wbuf := [0xCC#8, 0x44#8, 0xBE#8] } })
      (fun s => s.brg.wbuf == [0xBE#8] && s.brg.rbuf == [0xCC#8, 0x44#8]
        && s.brg.resq == [0x00#8]) = true := by decide

/-- V3.17. -/
theorem block_too_few :
    refusedBy (runMoves [.record 0x0100750002#40, .brg]
      (withBrg [] fun b => { b with wbuf := [0xCC#8] })) .blockBuffers = true := by decide

/-- V3.18. -/
theorem set_duration :
    nextIs (runMoves [.record 0x010013002F#40, .brg, .brg] (ready []))
      (fun s => s.brg.spud == 0x2F#8 && statusByte s 2 == 0x2F#8 && s.brg.resq == [0x00#8]
        && s.brg.ppd == 0x40#8) = true := by decide

/-- V3.19: pulse not enabled. -/
theorem pulse_disabled :
    nextIs (runMoves [.record 0x0100310000#40, .brg, .brg] (ready []))
      (fun s => s.brg.resq == [0x00#8] && s.trace.length == 1) = true := by decide

/-- V3.20: 752 ms of pull-up; at 751 ms it still runs. -/
theorem pulse_runs_its_time :
    nextIs (runMoves [.record 0x0100310000#40, .brg, .clock 751, .brg]
        (withBrg [] fun b => { b with en := 0x03#8, spud := 0x2F#8 }))
      (fun s => statusFlags s == 0x01#8) = true := by decide

theorem pulse_ends :
    nextIs (runMoves [.record 0x0100310000#40, .brg, .clock 752, .brg]
        (withBrg [] fun b => { b with en := 0x03#8, spud := 0x2F#8 }))
      (fun s => statusFlags s == 0x20#8 && s.brg.resq == [0x00#8]) = true := by decide

/-- V3.21: no 12 V supply. -/
theorem pulse_without_supply :
    nextIs (runMoves [.record 0x0100390000#40, .brg, .brg] (ready []))
      (fun s => s.brg.resq == [0x08#8] && s.brg.pulse == .off) = true := by decide

/-- R178: a programming pulse with code 0 is refused. -/
theorem pulse_zero_refused :
    refusedBy (runMoves [.record 0x0100390000#40, .brg]
      { withBrg [] (fun b => { b with ppd := 0x00#8 }) with vppIn := true })
      .zeroPulseDuration = true := by decide

/-- V3.22: the pull-up epilogue. -/
theorem byte_then_pull_up :
    nextIs (runMoves ([.record 0x0110530044#40] ++ List.replicate 9 .brg)
        (withBrg [true, true] fun b => { b with en := 0x03#8, spud := 0x01#8 }))
      (fun s => s.brg.pulse == .spu (.finite 16000) && s.brg.rbuf == [0x44#8]
        && s.brg.exec == .busy) = true := by decide

/-- V3.23: the reset epilogue on an empty bus. -/
theorem byte_then_reset :
    nextIs (runMoves ([.record 0x01015300FF#40] ++ List.replicate 10 .brg)
        { ready [] with
          wire := .oracle [{ presence := false, short := false, alarm := false }]
            (List.replicate 8 true) })
      (fun s => s.brg.rbuf == [0xFF#8] && s.brg.resq == [0x01#8]) = true := by decide

/-- V2.18, R176. -/
theorem search_access_refused :
    refusedBy (exec (.commSearchAccess im 0x1234#16) (ready [])) .searchAccess = true := by decide

/-- V3.32, P7: a second comm record while one runs; the next answer of the bridge is a fault, and a
device reset repairs it. -/
theorem second_record_desyncs :
    nextIs (runMoves [.record 0x01005300FF#40, .record 0x01005300FF#40] (ready []))
      (fun s => desynced (applyMove .status s)
        && nextIs (applyMove (.record 0x0000000000#40) s) (fun t => t.brg.fault == .none))
      = true := by decide

/-! ### Mode commands -/

/-- V3.24, with `SPCE` kept (R201). -/
theorem mode_pulse_en :
    nextIs (exec (.modePulseEn true true) (withBrg [] fun b => { b with en := 0x04#8 }))
      (fun s => statusByte s 0 == 0x07#8) = true := by decide

/-- V3.25. -/
theorem mode_speed_change_en :
    nextIs (exec (.modeSpeedChangeEn true) (ready [])) (fun s => statusByte s 0 == 0x06#8)
      = true := by decide

/-- V3.26 to V3.30. -/
theorem mode_bus_speed :
    nextIs (exec (.modeBusSpeed 0x02#8) (ready [])) (fun s => statusByte s 1 == 0x02#8)
      = true := by decide
theorem mode_pullup_duration :
    nextIs (exec (.modePullupDuration 0x11#8) (ready [])) (fun s => statusByte s 2 == 0x11#8)
      = true := by decide
theorem mode_slew_rate :
    nextIs (exec (.modeSlewRate 0x03#8) (ready [])) (fun s => statusByte s 7 == 0x03#8)
      = true := by decide
theorem mode_pulse_duration :
    nextIs (exec (.modePulseDuration 0x41#8) (ready [])) (fun s => statusByte s 3 == 0x41#8)
      = true := by decide
theorem mode_timing0 :
    nextIs (exec (.modeTiming0 0x04#8) (ready [])) (fun s => statusByte s 4 == 0x04#8)
      = true := by decide
theorem mode_timing1 :
    nextIs (exec (.modeTiming1 0x04#8) (ready [])) (fun s => statusByte s 5 == 0x04#8)
      = true := by decide

/-- V3.31. -/
theorem mode_while_busy :
    nextIs (exec (.modeBusSpeed 0x02#8) (withBrg [] fun b => { b with
        exec := .busy, cur := some (.commByteIo im 0xFF#8) }))
      (fun s => s.brg.fault == .desync && s.brg.speed == 0x00#8) = true := by decide

/-! ### The Status Record and the short check -/

/-- The record after init (section 3). -/
theorem record_after_init :
    statusRecord (ready []) =
      [0x02#8, 0x00#8, 0x00#8, 0x40#8, 0x06#8, 0x07#8, 0x00#8, 0x05#8, 0x00#8, 0x00#8, 0x20#8,
        0x1B#8, 0x00#8, 0x00#8, 0x00#8, 0x00#8] := by decide

/-- V4.14, V4.16: the sentinel is skipped; a short is found wherever it stands. -/
theorem scan_sentinel : (tailShort [0xA5#8, 0x01#8], tailNoResponse [0xA5#8]) = (false, false) := by
  decide
theorem scan_short_anywhere : tailShort [0x01#8, 0x00#8, 0x02#8] = true := by decide

/-! ### Durations, CRC8, the search (V4.1 to V4.6, R305, V6.10) -/

theorem duration_750 : durationCode 750 = 0x2F#8 := by decide
theorem duration_15_16 : (durationCode 15, durationCode 16) = (0x01#8, 0x02#8) := by decide
theorem duration_4079 : durationCode 4079 = 0xFF#8 := by decide

set_option maxRecDepth 4000 in
theorem crc_published :
    crc8 [0x02#8, 0x1C#8, 0xB8#8, 0x01#8, 0x00#8, 0x00#8, 0x00#8] = 0xA2#8 := by decide
set_option maxRecDepth 4000 in
theorem valid_c : Rom.valid 0x140316001B4AFF28#64 = true := by decide
theorem invalid_family_zero : Rom.valid 0#64 = false := by decide

/-- V6.10 on E with `last_discrepancy` = 9. -/
theorem propose_replays :
    (propose 3 ⟨some 9, false, 0x2900000000000128#64⟩,
      propose 9 ⟨some 9, false, 0x2900000000000128#64⟩,
      propose 10 ⟨some 9, false, 0x2900000000000128#64⟩) = (true, true, false) := by decide

/-! ### The operation port -/

/-- R34, R40, R132: refused while busy, refused while closed, `CallerError` out of range. -/
theorem refused_while_busy :
    refusedBy (present .reset { ready [] with seq := { (ready []).seq with busy := true } })
      .operationWhileBusy = true := by decide
theorem refused_while_closed : refusedBy (present .reset State.reset) .handleClosed = true := by
  decide
theorem caller_error_pulse :
    nextIs (present (.startpulse 4080) (ready []))
      (fun s => s.seq.answer == some (.error .callerError .startpulse 0x00#8) && !s.seq.busy)
      = true := by decide

/-- R132: a bit, a byte, a speed and a search mode out of range. -/
theorem caller_error_operands :
    [HostOp.touchbit 2, .wrbit 2, .triplet 2, .wrbyte 256 none, .wrblock [0, 256] none, .setspeed 3,
      .setspeed 256, .srchNext none, .search none, .rdblock 65537].all
      (fun op => nextIs (present op (ready [])) fun s =>
        s.seq.answer == some (.error .callerError op.name 0x00#8) && !s.seq.busy) = true := by decide

/-- An open idle session on a machine that follows R334 or R233 for a failed mode record of `STARTPULSE`,
and R332 or R233 for the last one after a `POR`. -/
def readyPulse (recovers ends : Bool) : State :=
  { ready [] with
    cfg := { ref with readings :=
      { ref.readings with pulseModeRecovers := recovers, porEndsPulse := ends } } }

/-- R321, R334: the first record of a `STARTPULSE` is lost; one initialization sequence runs first. -/
theorem startpulse_first_record_recovers :
    nextIs (runMoves [.host (.startpulse 16), seqOk, .seq .lost] (readyPulse true false))
      (fun s => s.seq.answer == none && s.brg.resq == []
        && s.seq.phase.take (initSequence ref).length == initSequence ref) = true := by decide

/-- R233: the same record, outside every `try`; the error is answered at once. -/
theorem startpulse_first_record_surfaces :
    nextIs (runMoves [.host (.startpulse 16), .seq .lost] (readyPulse false false))
      (fun s => s.seq.answer == some (.error .transportError .startpulse 0x00#8) && !s.seq.busy)
      = true := by decide

/-- A `STARTPULSE` after the poll that saw a `POR`, its last record ahead. -/
def pulseAfterPor (ends : Bool) : State :=
  { readyPulse false ends with
    brg := (deviceReset (ready [])).brg
    seq := { Seq.reset ref with
      handle := .opened, busy := true, op := some .startpulse, porSeen := true
      phase := [.pulseEnd, .answer .unit] } }

/-- R332: it completes with all enables 0. R233: its record leaves `PRGE`. -/
theorem startpulse_after_por :
    nextIs (runMoves [seqOk, seqOk] (pulseAfterPor true))
        (fun s => s.brg.en == 0x00#8 && s.seq.answer == some (.ok .unit)) = true ∧
      nextIs (runMoves [seqOk, seqOk, seqOk] (pulseAfterPor false))
        (fun s => s.brg.en == 0x02#8 && s.seq.answer == some (.ok .unit)) = true := by decide

/-- R330: an injected byte of the bits that no command produces. -/
theorem inject_appends :
    nextIs (applyMove (.inject true false false true) (ready [])) (fun s => s.brg.resq == [0x90#8])
      = true := by decide

/-- V5.12: probes (1, 0) overrule the proposal; V5.13: probes (1, 1) abort. -/
theorem triplet_forced : directionTaken true false false = some true := by decide
theorem triplet_abort : directionTaken true true false = none := by decide

/-! ### Witnesses: states and operands that meet the hypotheses of each statement of
Certificates/Slice0/Obligations.lean, clause by clause -/

/-- A bridge with this record in execution, at this stage. -/
def running (i : Instr) (g : Stage) (f : Brg → Brg) : State :=
  withBrg [] fun b => f { b with exec := .busy, cur := some i, curcmd := i.value ref, stage := g }

/-- An operation in progress with these micro-steps left. -/
def doing (o : OpName) (p : List Micro) : State :=
  { ready [] with
    seq := { Seq.reset ref with handle := .opened, busy := true, op := some o, phase := p } }

/-- A desynchronised bridge. -/
def broken : State := withBrg [] fun b => { b with fault := .desync }

/-- A two-byte block with one byte done and three slots of the second made. -/
def midBlock : State :=
  running (.commBlockIo im 0x0002#16) .body fun b =>
    { b with k := 3, m := 1, x := 0x44#8, rbuf := [0xCC#8] }

theorem witness_decode_encode : ref.Legal ∧
    Instr.wellFormed ref (.commBlockIo { im with spu := true } 0x0040#16) = true :=
  ⟨reference_legal, by decide⟩

/-- A request that encodes; one out of its category, one past the index, and the reserved ones of R122. -/
theorem witness_encode_requests :
    encodeRequest ref ⟨.comm, .byteIo, im, false, 0xF0⟩ = some 0x01005300F0#40 ∧
      CmdName.pulseEn.category ≠ .comm ∧ 65535 < 65536 ∧
      [(⟨.comm, .byteIo, im, true, 0xF0⟩ : CmdRequest), ⟨.control, .flush, im, false, 3⟩,
        ⟨.mode, .pulseEn, im, false, 4⟩, ⟨.mode, .speedChangeEn, im, false, 2⟩].all
        (fun r => (encodeRequest ref r).isNone) = true ∧
      (ready []).seq.handle = .opened ∧ (ready []).seq.busy = false := by decide

theorem witness_encode_decode :
    decode ref 0x0000001234#40 = .ok .ctlResetDevice ∧
      (Instr.commBitIo im true).row.admits 0x0100290000#40 = true ∧
      (Instr.commBitIo im false).row.admits 0x0100290000#40 = true := ⟨rfl, rfl, rfl⟩

theorem witness_step_runs_record :
    (State.reset.withFetchWord 40 0x0000020000).agenda = [.record 0x0000020000#40] ∧
      decode ref 0x0000020000#40 = .ok .ctlResumeExe ∧
      decode ref 0x0300000000#40 = .error .category ∧
      decodeTableWord 40 0x0000020000 = some .ctlResumeExe := ⟨rfl, rfl, rfl, rfl⟩

theorem witness_sequencer_runs_record :
    (doing .cmd [.ctl 0x0000030000#40, .answer .bytes]).seq.phase =
        .ctl 0x0000030000#40 :: [.answer .bytes] ∧
      decode ref 0x0000030000#40 = .ok .ctlHaltExe := ⟨rfl, rfl⟩

theorem witness_reset_device :
    (doing .cmd [.ctl (cmdWord 0x00#8 0x0000#16 0x00FF#16), .answer .bytes]).seq.phase =
      .ctl (cmdWord 0x00#8 0x0000#16 0x00FF#16) :: [.answer .bytes] := rfl

/-- The four clauses of the halt: no pulse; the pulse of a `COMM_PULSE`; that of an epilogue; halted and
idle. -/
theorem witness_halt_exe :
    ((ready []).brg.fault = .none ∧ (ready []).brg.pulse = .off) ∧
      (∀ s, s = running (.commPulse im .spu) .pulsing (fun b => { b with pulse := .spu .infinite }) →
        s.brg.fault = .none ∧ s.brg.pulse ≠ .off ∧ s.brg.exec = .busy ∧
          s.brg.cur = some (.commPulse im .spu)) ∧
      (∀ s, s = running (.commBitIo { im with spu := true } true) .pulsing
          (fun b => { b with pulse := .spu .infinite }) →
        s.brg.fault = .none ∧ s.brg.pulse ≠ .off ∧
          ∀ o type, ¬(s.brg.exec = .busy ∧ s.brg.cur = some (.commPulse o type))) ∧
      (∀ s, s = withBrg [] (fun b => { b with halt := true }) →
        s.brg.fault = .none ∧ s.brg.halt = true ∧ s.brg.exec = .idle) := by
  refine ⟨by decide, ?_, ?_, ?_⟩ <;> rintro s rfl
  · decide
  · exact ⟨rfl, by decide, fun o type h => by cases h.2⟩
  · decide

theorem witness_resume_exe : ∀ s,
    s = withBrg [] (fun b => { b with halt := true, cbuf := [.commByteIo im 0xFF#8] }) →
      s.brg.fault = .none ∧ s.brg.exec = .idle ∧ s.brg.cbuf = .commByteIo im 0xFF#8 :: [] := by
  rintro s rfl; decide

theorem witness_flushes :
    ((ready []).brg.fault = .none ∧ (ready []).brg.exec = .idle ∧ (ready []).brg.cbuf = []) ∧
      (midBlock.brg.fault = .none ∧ midBlock.brg.exec = .busy) ∧
      ∀ blocks, (waiting blocks).brg.fault = .none ∧ (waiting blocks).brg.exec = .idle ∧
        (waiting blocks).brg.cbuf ≠ [] ∧
        (waiting blocks).cfg.readings.waitingBlocksFlush = blocks := by decide

/-- Used by every statement about a bridge that is ready for a command. -/
theorem witness_mode_writes : (ready []).brg.ready = true := by decide

theorem witness_desync :
    (midBlock.brg.fault = .none ∧ midBlock.brg.outstanding = true ∧
        (Instr.modeBusSpeed 0x00#8).category ≠ .control) ∧
      broken.brg.fault = .desync ∧ nextIs (applyMove (.clock 1) broken) (fun _ => true) = true ∧
      nextIs (applyMove .por broken) (fun t => t.brg.fault == .none) = true ∧
      nextIs (applyMove (.record 0x0000000000#40) broken) (fun t => t.brg.fault == .none) = true := by
  decide

theorem witness_comm_starts :
    Instr.runnable ref (.commByteIo { im with spu := true } 0xFF#8) = true ∧
      (ready []).brg.ready = true ∧ (ready []).brg.halt = false ∧
      (withBrg [] fun b => { b with halt := true }).brg.ready = true ∧
      (withBrg [] fun b => { b with halt := true }).brg.halt = true := by decide

/-- Options for each refusal, and executable ones for the search access. -/
theorem witness_refused_forms :
    (ready []).brg.ready = true ∧ { im with im := false }.im = false ∧ { im with ac := true }.ac = true ∧
      { im with spu := true, ra := true }.spu = true ∧ im.executable = true := by decide

theorem witness_set_duration_runs :
    Instr.runnable ref (.commSetDuration im .prg 0x40#8) = true ∧ (ready []).brg.ready = true ∧
      (ready []).brg.halt = false := by decide

theorem witness_onewire_reset_runs :
    Instr.runnable ref (.commOnewireReset im true 0x02#8) = true ∧
      ∃ a u, wireReset { ready [] with brg := { (ready []).brg with speed := 0x02#8 } } = (a, u) :=
  ⟨rfl, _, _, rfl⟩

theorem room : (ready []).brg.rbuf.length < ref.bufCap := Nat.succ_pos _

theorem witness_bit_io_body :
    CommOpts.executable { im with ra := true } = true ∧
      (ready []).brg.rbuf.length < ref.bufCap ∧ ∃ r u, wireSlot true (ready []) = (r, u) :=
  ⟨rfl, room, _, _, rfl⟩

theorem witness_byte_io_body :
    CommOpts.executable { im with spu := true } = true ∧
      (ready []).brg.rbuf.length < ref.bufCap ∧ ∃ e u, sendByte 0xF0#8 (ready []) = (e, u) :=
  ⟨rfl, room, _, _, rfl⟩

theorem witness_block_io_body : ∀ s,
    s = withBrg [] (fun b => { b with wbuf := [0xCC#8, 0x44#8, 0xBE#8] }) →
      Instr.runnable ref (.commBlockIo im 0x0002#16) = true ∧ s.brg.ready = true ∧ s.brg.halt = false ∧
        s.brg.wbuf = [0xCC#8, 0x44#8] ++ [0xBE#8] ∧
        s.brg.rbuf.length + (0x0002#16).toNat ≤ ref.bufCap ∧
        ∃ e u, sendBytes [0xCC#8, 0x44#8] s = (e, u) := by
  rintro s rfl
  refine ⟨rfl, rfl, rfl, rfl, ?_, _, _, rfl⟩
  show 0 + 2 ≤ Config.bufSlack + 64
  omega

theorem witness_buffer_refusals :
    (∀ s, s = withBrg [] (fun b => { b with rbuf := List.replicate ref.bufCap 0x00#8 }) →
      s.brg.ready = true ∧ s.brg.halt = false ∧ s.brg.rbuf.length = ref.bufCap ∧
        ref.bufCap < s.brg.rbuf.length + (0x0001#16).toNat) ∧
      0x0001#16 ≠ 0#16 ∧ (ready []).brg.wbuf.length < (0x0001#16).toNat := by
  refine ⟨?_, by decide, by decide⟩
  rintro s rfl
  exact ⟨rfl, rfl, by simp [withBrg], by simp [withBrg]⟩

/-- One state for each gate of a pulse. -/
theorem witness_pulse_gates :
    (im.executable = true ∧ im.noEpilogue = true) ∧
      (ready []).brg.spue ref = false ∧
      (withBrg [] fun b => { b with en := 0x00#8 }).brg.prge ref = false ∧
      ((ready []).brg.prge ref = true ∧ (ready []).vppIn = false) ∧
      (∀ s, s = { withBrg [] (fun b => { b with ppd := 0x00#8 }) with vppIn := true } →
        s.brg.prge ref = true ∧ s.vppIn = true ∧ s.brg.ppd = 0x00#8) ∧
      (withBrg [] fun b => { b with en := 0x03#8 }).brg.spue ref = true ∧
      (∀ s, s = { ready [] with vppIn := true } →
        s.brg.prge ref = true ∧ s.vppIn = true ∧ s.brg.ppd ≠ 0x00#8) := by
  refine ⟨by decide, by decide, by decide, by decide, ?_, by decide, ?_⟩ <;> rintro s rfl <;> decide

/-- Codes 0, 1 and 255, and times on both sides of the end of the pulse. -/
theorem witness_pull_up_lasts :
    (∀ code ∈ [0x00#8, 0x01#8, 0xFF#8], ∀ s,
      s = running (.commPulse im .spu) .pulsing
        (fun b => { b with spud := code, pulse := .spu (pullUpTime ref code) }) →
      s.brg.fault = .none ∧ s.brg.exec = .busy ∧ s.brg.cur = some (.commPulse im .spu) ∧
        s.brg.stage = .pulsing ∧ s.brg.pulse = .spu (pullUpTime ref s.brg.spud)) ∧
      15 < 16 * (0x01#8).toNat ∧ 16 * (0x01#8).toNat ≤ 16 ∧ 4079 < 16 * (0xFF#8).toNat ∧
      16 * (0xFF#8).toNat ≤ 4080 := by
  refine ⟨?_, by decide⟩
  intro code _ s hs
  subst hs
  exact ⟨rfl, rfl, rfl, rfl, rfl⟩

/-- A command at each stage after its body. -/
theorem witness_epilogues :
    (∀ s, s = running (.commByteIo { im with ra := true } 0xFF#8) .resetAfter id →
      s.brg.fault = .none ∧ s.brg.exec = .busy ∧ s.brg.stage = .resetAfter ∧
        ∃ a u, wireReset s = (a, u)) ∧
      Instr.runnable ref (.commByteIo { im with ra := true } 0xFF#8) = true ∧
      wantsPullUp (.commByteIo { im with ra := true } 0xFF#8) = false ∧
      (∀ s, s = running (.commByteIo { im with spu := true } 0xFF#8) .pullUp
          (fun b => { b with en := 0x03#8 }) → s.brg.stage = .pullUp ∧ s.brg.spue ref = true) ∧
      (running (.commByteIo { im with spu := true } 0xFF#8) .pullUp id).brg.spue ref = false ∧
      (running (.commByteIo im 0xFF#8) .finish id).brg.stage = .finish := by
  refine ⟨?_, by decide, by decide, ?_, by decide, by decide⟩
  · rintro s rfl; exact ⟨rfl, rfl, rfl, _, _, rfl⟩
  · rintro s rfl; decide

/-- A step that completes, one that does not, and a command abandoned by a device reset. -/
theorem witness_one_result_per_command :
    nextIs (brgStep (running (.commByteIo im 0xFF#8) .finish id)) (fun t => t.brg.exec == .idle) = true ∧
      nextIs (brgStep midBlock) (fun t => t.brg.exec == .busy) = true ∧
      nextIs (exec .ctlResetDevice midBlock) (fun t => t.brg.resq == []) = true := by decide

/-- Each kind of record is accepted somewhere. -/
theorem witness_acceptance_frame :
    nextIs (exec .ctlHaltExe (ready [])) (fun _ => true) = true ∧
      nextIs (exec .ctlFlushRead (ready [])) (fun _ => true) = true ∧
      nextIs (exec (.commByteIo im 0xFF#8) (ready [])) (fun _ => true) = true ∧
      nextIs (exec (.modeSlewRate 0x03#8) (ready [])) (fun _ => true) = true := by decide

theorem witness_only_bridge_drives_wire :
    nextIs (applyMove (.clock 5) (ready [])) (fun _ => true) = true ∧ Move.clock 5 ≠ .brg ∧
      ∀ w, Move.clock 5 ≠ .rewire w := ⟨by decide, by decide, fun _ h => by cases h⟩

theorem witness_status_read : (ready []).brg.fault = .none ∧ broken.brg.fault = .desync := by decide

/-- A write while busy, one that just fits, and one byte too many. -/
theorem witness_data_out_write :
    ([0xAA#8] ≠ [] ∧ midBlock.brg.fault = .none ∧ midBlock.brg.outstanding = true) ∧
      (∀ s, s = withBrg [] (fun b =>
          { b with wbuf := List.replicate (Config.bufSlack + 63) 0x00#8 }) →
        s.brg.fault = .none ∧ s.brg.outstanding = false ∧
          s.brg.wbuf.length + [0xAA#8].length ≤ ref.bufCap ∧
          ref.bufCap < s.brg.wbuf.length + [0xAA#8, 0xBB#8].length) := by
  refine ⟨by decide, ?_⟩
  rintro s rfl
  refine ⟨rfl, rfl, ?_, ?_⟩ <;> simp [withBrg, Config.reference]

/-- A read of as many bytes as there are less one, and a read of one more than there are. -/
theorem witness_data_in_read : ∀ s,
    s = withBrg [] (fun b => { b with rbuf := [0xCC#8, 0x44#8] }) →
      s.brg.fault = .none ∧ s.brg.rbuf = [0xCC#8] ++ [0x44#8] ∧ [0xCC#8].length = 1 ∧
        s.brg.rbuf = [0xCC#8, 0x44#8] ++ [] ∧ [0xCC#8, 0x44#8].length < 3 := by
  rintro s rfl; decide

/-- The invariant of the bridge holds inside a block, and the bridge steps on. -/
theorem witness_bridge_invariant :
    Brg.Inv ref midBlock.brg ∧
      nextIs (step { midBlock with agenda := [.brg] }) (fun _ => true) = true := by
  refine ⟨?_, by decide⟩
  refine ⟨rfl, rfl, Nat.zero_le _, Nat.succ_pos _, rfl, rfl, Nat.zero_le _, ?_, rfl, ?_, ?_,
    by decide, ?_, ?_⟩
  · intro h; cases h rfl
  · intro h; cases h
  · intro _; exact ⟨_, rfl, rfl, rfl⟩
  · intro h; cases h rfl
  · intro o n h _ _
    cases h
    exact ⟨by decide, by decide, by show 1 + 2 ≤ Config.bufSlack + 64 + 1; omega⟩

theorem witness_block_never_starves :
    midBlock.brg.fault = .none ∧ midBlock.brg.exec = .busy ∧
      midBlock.brg.cur = some (.commBlockIo im 0x0002#16) ∧ midBlock.brg.stage = .body ∧
      (midBlock.brg.k ≠ 0 ∨ midBlock.brg.m ≠ 0) := by decide

/-- The invariant of the sequencer holds inside an operation, and the sequencer steps on. -/
theorem witness_sequencer_invariant :
    Seq.Inv ref (doing .touchbit (touchBit ref true ++ [Micro.answer .bit])).seq ∧
      nextIs (step { doing .touchbit (touchBit ref true ++ [Micro.answer .bit]) with agenda := [seqOk] })
        (fun _ => true) = true := by
  refine ⟨?_, by decide⟩
  constructor <;> decide

/-- A bridge that stays busy, with a bound of one and with the default bound. -/
theorem witness_poll_times_out : ∀ bound ∈ [1, 100], ∀ s,
    s = { doing .touchbit (pollIdle ++ [Micro.answer .bit]) with
          brg := midBlock.brg
          seq := { (doing .touchbit (pollIdle ++ [Micro.answer .bit])).seq with pollMax := bound } } →
      s.seq.phase = pollIdle ++ [Micro.answer .bit] ∧ s.brg.fault = .none ∧
        s.brg.outstanding = true ∧ s.brg.epof = false ∧ 1 ≤ s.seq.pollMax := by
  intro bound hb s hs
  subst hs
  simp only [List.mem_cons, List.not_mem_nil, or_false] at hb
  refine ⟨rfl, rfl, rfl, rfl, ?_⟩
  show 1 ≤ bound
  omega

/-- An idle bridge, and a busy one with `EPOF` set, before the last read and at it. -/
theorem witness_poll_reads :
    (∀ s, s = doing .touchbit (pollIdle ++ [Micro.answer .bit]) →
      s.seq.phase = pollIdle ++ [Micro.answer .bit] ∧ s.brg.fault = .none ∧
        s.brg.outstanding = false ∧ s.brg.epof = false) ∧
      ∀ n ∈ [98, 99], ∀ s, s = { doing .touchbit [.pollRead, .answer .bit] with
            brg := { midBlock.brg with epof := true }
            seq := { (doing .touchbit [.pollRead, .answer .bit]).seq with n := n } } →
        s.seq.phase = .pollRead :: [.answer .bit] ∧ s.brg.fault = .none ∧ s.brg.epof = true ∧
          s.brg.outstanding = true ∧ (s.seq.n + 1 = s.seq.pollMax ↔ n = 99) := by
  refine ⟨?_, ?_⟩
  · rintro s rfl; decide
  · intro n _ s hs
    subst hs
    exact ⟨rfl, rfl, rfl, rfl, show n + 1 = 100 ↔ n = 99 by omega⟩

theorem witness_short_check : ∀ s, s = doing .shortchk [.shortCheck, .answer .pair] →
    s.seq.phase = .shortCheck :: [.answer .pair] ∧ s.brg.fault = .none := by
  rintro s rfl; decide

/-- Inside the `try` of a comm operation, after its record was sent, with a whole `try` between; and the
three ends of a bus reset. -/
theorem witness_recovery_entry :
    (doing .touchbit (pollIdle ++ .endRecover :: [.answer .bit])).seq.phase =
        pollIdle ++ .endRecover :: [.answer .bit] ∧
      balanced 0 pollIdle = true ∧ balanced 0 (recovering [.shortCheck] ++ [.resetTail]) = true ∧
      ∀ healthy : Bool, ∀ speed ∈ [0x00#8, 0x02#8], ∀ s,
        s = { doing .reset [.resetTail, .answer .present] with
              seq := { (doing .reset [.resetTail, .answer .present]).seq with
                healthy := healthy, speed := speed } } →
          s.seq.phase = .resetTail :: [.answer .present] ∧ s.seq.healthy = healthy ∧
            (s.seq.speed = ref.speeds.overdrive ↔ speed = 0x02#8) := by
  refine ⟨rfl, rfl, rfl, ?_⟩
  intro healthy speed _ s hs
  subst hs
  exact ⟨rfl, rfl, Iff.rfl⟩

/-- A mode record of a `STARTPULSE` under either reading. -/
theorem witness_pulse_mode_entry : ∀ recovers spue : Bool, ∀ c, c = (readyPulse recovers false).cfg →
    ∀ s, s = { readyPulse recovers false with
          seq := { (doing .startpulse []).seq with
            phase := pulseMode c spue ++ [Micro.answer .unit] } } →
      s.seq.phase = pulseMode s.cfg spue ++ [Micro.answer .unit] ∧
        balanced 0 [Micro.answer .unit] = true ∧ s.seq.op = some .startpulse ∧
        s.cfg.readings.pulseModeRecovers = recovers := by
  intro recovers spue c hc s hs
  subst hc hs
  exact ⟨rfl, rfl, rfl, rfl⟩

/-- The second error of a `WRBYTE` whose pulse is still ahead. -/
theorem witness_recovery_does_not_nest :
    ((doing .wrbyte (initSequence ref ++ .endDrop :: .reraise .timeout :: [.answer .flag])).seq.phase =
        initSequence ref ++ .endDrop :: .reraise .timeout :: [.answer .flag] ∧
        balanced 0 (initSequence ref) = true) ∧
      ∀ rest, rest = [.checkByte 0xFF#8] ++ startPulse ref 16 ++ [.answer .flag] →
        (doing .wrbyte (.reraise .timeout :: rest)).seq.phase = .reraise .timeout :: rest ∧
          balanced 0 rest = true ∧
          (doing .wrbyte (.reraise .timeout :: rest)).seq.op = some .wrbyte := by
  refine ⟨⟨rfl, rfl⟩, ?_⟩
  rintro rest rfl
  refine ⟨rfl, ?_, rfl⟩
  unfold startPulse pulseMode
  cases ref.readings.pulseModeRecovers <;> rfl

theorem witness_init_repairs :
    (doing .recover (initSequence ref ++ [Micro.answer .pair])).seq.phase =
      initSequence ref ++ [Micro.answer .pair] :=
  rfl

/-- Used by every statement about an operation presented to an open idle session. -/
theorem witness_lost_bit_recovers :
    (ready []).seq.handle = .opened ∧ (ready []).seq.busy = false := by decide

/-- Busy, closed, open for `ACQUIRE`, and operands on both sides of their bounds. -/
theorem witness_operation_frame :
    (doing .touchbit [.answer .bit]).seq.busy = true ∧
      (State.reset.seq.busy = false ∧ State.reset.seq.handle = .closed ∧ HostOp.reset.name ≠ .acquire) ∧
      (HostOp.acquire none none none).name = .acquire ∧
      operandsOk ref (.startpulse 4079) = true ∧ operandsOk ref (.startpulse 4080) = false ∧
      operandsOk ref (.wrbyte 255 none) = true ∧ operandsOk ref (.wrbyte 256 none) = false := by decide

theorem witness_touchbit_answers :
    ((ready []).brg.ready = true ∧ (ready []).brg.halt = false ∧ (ready []).brg.epof = false ∧
        (ready []).brg.rbuf = []) ∧ ∃ r u, wireSlot true (ready []) = (r, u) :=
  ⟨by decide, _, _, rfl⟩

theorem witness_duration_code : 4079 ≤ 4079 ∧ 4079 < 4080 := by decide

theorem witness_set_speed :
    legalSpeed ref 0x02#8 = true ∧ legalSpeed ref (BitVec.ofNat 8 3) = false ∧ 255 < 256 := by decide

theorem witness_search_end : ∀ s,
    s = { ready [] with seq := { (ready []).seq with ss := ⟨none, true, 0#64⟩ } } →
      s.seq.handle = .opened ∧ s.seq.busy = false ∧ s.seq.ss.lastDeviceFlag = true := by
  rintro s rfl; decide

/-- At, below and above the last discrepancy. -/
theorem witness_direction_proposed : ∀ ss, ss = (⟨some 9, false, 0#64⟩ : SearchState) →
    ss.lastDiscrepancy = some 9 ∧ 9 < 10 ∧ 8 < 9 ∧ SearchState.fresh.lastDiscrepancy = none := by
  rintro ss rfl; decide

theorem witness_search_state_kept : ∀ s,
    s = { doing .srchReset [.srchReset, .answer .unit] with agenda := [seqOk] } →
      nextIs (step { s with seq := { s.seq with ss := ⟨some 9, false, 0#64⟩ } })
        (fun t => t.seq.ss != ⟨some 9, false, 0#64⟩) = true := by
  rintro s rfl; decide

set_option maxRecDepth 4000 in
/-- A pass of either operation that ends with a valid identifier, and one with family code 0. -/
theorem witness_pass_commits :
    (∀ o ∈ [OpName.srchNext, .search], ∀ rom ∈ [0x140316001B4AFF28#64, 0#64], ∀ s,
      s = { doing o [.srchCommit .normal] with
            seq := { (doing o [.srchCommit .normal]).seq with workRom := rom } } →
        s.seq.phase = .srchCommit .normal :: [] ∧ s.seq.op = some o ∧ s.seq.workRom = rom) ∧
      (∀ rom : Rom, rom = 0x140316001B4AFF28#64 → rom.byte 0 ≠ 0x00#8 ∧
        crc8 [rom.byte 0, rom.byte 1, rom.byte 2, rom.byte 3, rom.byte 4, rom.byte 5, rom.byte 6] =
          rom.byte 7) ∧
      Rom.byte 0#64 0 = 0x00#8 := by
  refine ⟨?_, ?_, by decide⟩
  · intro o _ rom _ s hs
    subst hs
    exact ⟨rfl, rfl, rfl⟩
  · rintro rom rfl; decide

theorem witness_triplet_decides : ∀ comp : Bool, ∀ s,
    s = { doing .triplet (.tripletComp true :: [.answer .triplet]) with
          seq := { (doing .triplet (.tripletComp true :: [.answer .triplet])).seq with
            bytes := [if comp then 0x01#8 else 0x00#8], idBit := true } } →
      s.seq.phase = .tripletComp true :: [.answer .triplet] ∧
        s.seq.bytes = [if comp then 0x01#8 else 0x00#8] ∧ s.seq.idBit = true := by
  intro comp s hs; subst hs; exact ⟨rfl, rfl, rfl⟩

set_option maxRecDepth 4000 in
theorem witness_crc_facts : Rom.valid 0x2900000000000128#64 = true := by decide

/-- Two slaves that differ in bit 3 and in bit 63, both at the first probe of that position. -/
theorem witness_probes_of_reference_bus : ∀ i ∈ [3, 63], ∀ bus : RefBus,
    bus = ⟨[⟨0#64, false, .search, 0xF0#8, 8, i, 0⟩,
      ⟨0x8000000000000008#64, false, .search, 0xF0#8, 8, i, 0⟩], false⟩ →
      bus.shorted = false ∧ (∀ v ∈ bus.slaves, v.st ≠ .cmd) ∧ i ≤ 63 ∧
        (∀ v ∈ bus.slaves.filter Slave.searching, v.i = i ∧ v.ph = 0) ∧
        bus.slaves.filter Slave.searching ≠ [] ∧
        directionTaken (bus.slot true).1 ((bus.slot true).2.slot true).1 true = some true := by
  intro i hi bus hb
  simp only [List.mem_cons, List.not_mem_nil, or_false] at hi
  rcases hi with rfl | rfl <;> subst hb <;> decide

/-- The last poll of a `STARTPULSE`, under either reading of what follows a `POR`. -/
theorem witness_environment_events : ∀ ends : Bool, ∀ s,
    s = { readyPulse false ends with
          seq := (doing .startpulse
            (pollIdle ++ [Micro.endRecover, .pulseEnd, .answer .unit])).seq } →
      (s.cfg.Legal ∧ s.seq.phase = pollIdle ++ .endRecover :: .pulseEnd :: [Micro.answer .unit] ∧
        s.cfg.readings.porEndsPulse = ends) ∧
      (doing .startpulse [.pulseEnd, .answer .unit]).seq.phase = .pulseEnd :: [.answer .unit] ∧
        (doing .startpulse [.pulseEnd, .answer .unit]).seq.porSeen = false := by
  rintro ends s rfl
  exact ⟨⟨legal_of_readings reference_legal _, rfl, rfl⟩, rfl, rfl⟩

theorem witness_timing_is_silent :
    (ready []).blind = (withBrg [] fun b => { b with slew := 0x99#8, tp0 := 0x98#8 }).blind := rfl

end Sys2Proof.Tests
end

section
/-! Decoding: what the decoder accepts is not reserved, and it reads back what the encoder built
(30_encoding.md R121, R125). -/

namespace Sys2Proof.Proofs

open Sys2Proof.Machine Sys2Proof.Laws

/-! ### What the decoder accepts is not reserved -/

theorem allowed_eq_ok {a b : Bool} {i j : Instr} :
    allowed a b i = .ok j ↔ a = true ∧ b = true ∧ i = j := by
  cases a <;> cases b <;> simp [allowed]

theorem admitMode_eq_ok {a : Bool} {i j : Instr} : admitMode a i = .ok j ↔ a = true ∧ i = j := by
  cases a <;> simp [admitMode]

theorem decodeControl_wellFormed {c : Config} {v x : Half} {i : Instr}
    (h : decodeControl c v x = .ok i) : i.wellFormed c = true := by
  unfold decodeControl at h
  split_ifs at h <;> cases h <;> rfl

theorem decodeComm_wellFormed {c : Config} {v x : Half} {i : Instr}
    (h : decodeComm c v x = .ok i) : i.wellFormed c = true := by
  unfold decodeComm at h
  dsimp only at h
  split_ifs at h <;> simp only [allowed_eq_ok] at h <;> obtain ⟨ho, hx, rfl⟩ := h <;>
    simp_all [Instr.wellFormed]

theorem decodeMode_wellFormed {c : Config} {v x : Half} {i : Instr}
    (h : decodeMode c v x = .ok i) : i.wellFormed c = true := by
  unfold decodeMode at h
  dsimp only at h
  split_ifs at h <;> simp only [admitMode_eq_ok] at h <;> obtain ⟨hv, rfl⟩ := h <;>
    simp_all [Instr.wellFormed]

theorem decode_wellFormed {c : Config} {w : CmdWord} {i : Instr} (h : decode c w = .ok i) :
    i.wellFormed c = true := by
  unfold decode at h
  split_ifs at h
  · exact decodeControl_wellFormed h
  · exact decodeComm_wellFormed h
  · exact decodeMode_wellFormed h

/-! ### Operands read back as they were set -/

/-- `TYPE` reads back as it was set. -/
theorem decodeType_of_decodeB3 {c : Config} {v : Half} {type : PulseKind} (h : decodeB3 c v = type.bit) :
    decodeType c v = type := by
  cases type <;> simp [decodeType, h, PulseKind.bit]

/-- A one-bit value reads back (R120). -/
theorem speedChange_fields (b : Bool) :
    (optMask b 0x0001#16).clear 0xFFFE#16 = true ∧ (optMask b 0x0001#16)[0] = b := by
  cases b <;> decide

theorem twoPow_ne_zero {k : Nat} (hk : k < 8) : BitVec.twoPow 16 k ≠ 0#16 := by
  intro h
  have := congrArg (fun v : Half => v.getLsbD k) h
  simp [show k < 16 by omega] at this

/-! ### The category selects the decoder -/

section Legal

variable {c : Config} (hc : c.Legal)

theorem decode_cmdWord_control (v x : Half) :
    decode c (cmdWord c.catControl v x) = decodeControl c v x := by simp [decode]

include hc

theorem decode_cmdWord_comm (v x : Half) :
    decode c (cmdWord c.catComm v x) = decodeComm c v x := by
  have h : c.catComm ≠ c.catControl := fun h => by simpa [h] using hc.cats
  simp [decode, h]

theorem decode_cmdWord_mode (v x : Half) :
    decode c (cmdWord c.catMode v x) = decodeMode c v x := by
  have h₁ : c.catMode ≠ c.catControl := fun h => by simpa [h] using hc.cats
  have h₂ : c.catMode ≠ c.catComm := fun h => by simpa [h] using hc.cats
  simp [decode, h₁, h₂]

/-! ### Control records -/

theorem decode_encode_control {i : Instr} (hi : i.category = .control) :
    decode c (encode c i) = .ok i := by
  have hs := hc.selectors
  have ht := hc.targets
  simp only [List.nodup_cons, List.mem_cons, List.not_mem_nil, not_or, or_false] at hs ht
  obtain ⟨⟨s₁, s₂, s₃⟩, ⟨s₄, s₅⟩, s₆, -⟩ := hs
  obtain ⟨⟨t₁, t₂⟩, t₃, -⟩ := ht
  simp only [encode, hi, Config.categoryCode, decode_cmdWord_control, decodeControl]
  cases i <;> simp only [Instr.category, reduceCtorEq] at hi <;>
    simp [Instr.value, Instr.index, Ne.symm s₁, Ne.symm s₂, Ne.symm s₃, Ne.symm s₄, Ne.symm s₅,
    Ne.symm s₆, Ne.symm t₁, Ne.symm t₂, Ne.symm t₃]

/-! ### Comm records -/

theorem decode_encode_comm {i : Instr} (hi : i.category = .comm) (hw : i.wellFormed c = true) :
    decode c (encode c i) = .ok i := by
  have hn := List.nodup_reverse.2 hc.commCodes
  have hm := hc.codesInMask
  simp only [List.reverse_cons, List.reverse_nil, List.nil_append, List.cons_append, List.nodup_cons,
    List.mem_cons, List.not_mem_nil, not_or, or_false] at hn
  obtain ⟨⟨n₁, n₂, n₃, n₄, n₅, n₆⟩, ⟨n₇, n₈, n₉, n₁₀, n₁₁⟩, ⟨n₁₂, n₁₃, n₁₄, n₁₅⟩, ⟨n₁₆, n₁₇, n₁₈⟩,
    ⟨n₁₉, n₂₀⟩, n₂₁, -⟩ := hn
  have fields : ∀ {v : Half} {o : CommOpts} {b3 : Bool}, v ∈ [c.comm.setDuration, c.comm.bitIo,
      c.comm.pulse, c.comm.onewireReset, c.comm.byteIo, c.comm.blockIo, c.comm.searchAccess] →
      (commValue c v o b3).clear c.commReserved = true ∧ commValue c v o b3 &&& c.comm.codeMask = v ∧
        decodeOpts c (commValue c v o b3) = o ∧ decodeB3 c (commValue c v o b3) = b3 :=
    fun hv => commValue_fields hc (hm _ hv) _ _
  simp only [encode, hi, Config.categoryCode, decode_cmdWord_comm hc, decodeComm]
  cases i <;> simp only [Instr.category, reduceCtorEq] at hi <;>
    simp only [Instr.wellFormed, Bool.and_eq_true, decide_eq_true_eq] at hw <;>
    simp only [Instr.value, Instr.index]
  case commSetDuration o type code =>
    obtain ⟨-, -, -, b3⟩ := fields (v := c.comm.setDuration) (o := o) (b3 := type.bit) (by simp)
    have ht := decodeType_of_decodeB3 (type := type) b3
    simp [allowed, *]
  case commPulse o type =>
    obtain ⟨-, -, -, b3⟩ := fields (v := c.comm.pulse) (o := o) (b3 := type.bit) (by simp)
    have ht := decodeType_of_decodeB3 (type := type) b3
    simp [allowed, *]
  all_goals simp [allowed, *]

/-! ### Mode records -/

/-- The two bits of `MODE_PULSE_EN` read back as they were set, and no other bit is set (R120). -/
theorem pulseEn_fields (spue prge : Bool) :
    let x := optMask spue c.mode.valSPUE ||| optMask prge c.mode.valPRGE
    x.clear (~~~(c.mode.valSPUE ||| c.mode.valPRGE)) = true ∧ (!x.clear c.mode.valSPUE) = spue ∧
      (!x.clear c.mode.valPRGE) = prge := by
  obtain ⟨j, hj, h₁⟩ := hc.pulseEnBits c.mode.valSPUE (by simp)
  obtain ⟨k, hk, h₂⟩ := hc.pulseEnBits c.mode.valPRGE (by simp)
  have hne : j ≠ k := fun h => hc.pulseEn (by rw [h₁, h₂, h])
  have hj0 := twoPow_ne_zero hj
  have hk0 := twoPow_ne_zero hk
  have hjk : BitVec.twoPow 16 j &&& BitVec.twoPow 16 k = 0#16 := by
    apply BitVec.eq_of_getLsbD_eq
    intro i hi
    simp only [BitVec.getLsbD_and, BitVec.getLsbD_twoPow, BitVec.getLsbD_zero]
    grind
  have hkj : BitVec.twoPow 16 k &&& BitVec.twoPow 16 j = 0#16 := by rw [BitVec.and_comm]; exact hjk
  rw [h₁, h₂]
  refine ⟨?_, ?_, ?_⟩
  · rw [Half.clear, beq_iff_eq]
    apply BitVec.eq_of_getLsbD_eq
    intro i hi
    cases spue <;> cases prge <;> simp [optMask, hi] <;> grind
  all_goals cases spue <;> cases prge <;> simp [Half.clear, optMask, BitVec.and_or_distrib_right, *]

theorem decode_encode_mode {i : Instr} (hi : i.category = .mode) (hw : i.wellFormed c = true) :
    decode c (encode c i) = .ok i := by
  have hn := List.nodup_reverse.2 hc.modeIds
  simp only [List.reverse_cons, List.reverse_nil, List.nil_append, List.cons_append, List.nodup_cons,
    List.mem_cons, List.not_mem_nil, not_or, or_false] at hn
  obtain ⟨⟨n₁, n₂, n₃, n₄, n₅, n₆, n₇⟩, ⟨n₈, n₉, n₁₀, n₁₁, n₁₂, n₁₃⟩, ⟨n₁₄, n₁₅, n₁₆, n₁₇, n₁₈⟩,
    ⟨n₁₉, n₂₀, n₂₁, n₂₂⟩, ⟨n₂₃, n₂₄, n₂₅⟩, ⟨n₂₆, n₂₇⟩, n₂₈, -⟩ := hn
  simp only [encode, hi, Config.categoryCode, decode_cmdWord_mode hc, decodeMode]
  cases i <;> simp only [Instr.category, reduceCtorEq] at hi <;> simp only [Instr.wellFormed] at hw <;>
    simp only [Instr.value, Instr.index]
  case modePulseEn spue prge =>
    obtain ⟨f₁, f₂, f₃⟩ := pulseEn_fields hc spue prge
    simp [admitMode, f₁, f₂, f₃]
  case modeSpeedChangeEn spce => simp [admitMode, speedChange_fields, *]
  all_goals simp [admitMode, *]

/-- Decoding the encoding of a record that is not reserved gives the record back (R125). -/
theorem decode_encode {i : Instr} (hw : i.wellFormed c = true) : decode c (encode c i) = .ok i := by
  cases hi : i.category
  · exact decode_encode_control hc hi
  · exact decode_encode_comm hc hi hw
  · exact decode_encode_mode hc hi hw

end Legal

end Sys2Proof.Proofs
end

section
/-! Everything a decoded record can do when it reaches the bridge (10_state.md R31): one inversion lemma, from
which every later claim about records is read. -/

namespace Sys2Proof.Proofs

open Sys2Proof.Machine Sys2Proof.Laws

/-! ### One form for each kind of record -/

/-- The buffer a flush record empties (40_control_commands.md R154 to R156). -/
def flushWrite : Instr → Brg → Brg
  | .ctlFlushComm, b => { b with cbuf := [] }
  | .ctlFlushRead, b => { b with rbuf := [] }
  | .ctlFlushWrite, b => { b with wbuf := [] }
  | _, b => b

/-- The register a mode record writes (42_mode_commands.md R200). -/
def modeWrite (c : Config) : Instr → Brg → Brg
  | .modePulseEn spue prge, b => { b with en := enableFlags c spue prge (b.spce c) }
  | .modeSpeedChangeEn spce, b => { b with en := enableFlags c (b.spue c) (b.prge c) spce }
  | .modeBusSpeed speed, b => { b with speed := speed }
  | .modePullupDuration code, b => { b with spud := code }
  | .modeSlewRate code, b => { b with slew := code }
  | .modePulseDuration code, b => { b with ppd := code }
  | .modeTiming0 code, b => { b with tp0 := code }
  | .modeTiming1 code, b => { b with tp1 := code }
  | _, b => b

/-- Is the record a flush? -/
def isFlush : Instr → Bool
  | .ctlFlushComm | .ctlFlushRead | .ctlFlushWrite => true
  | _ => false

theorem exec_of_flush {i : Instr} (hi : isFlush i = true) (s : State) :
    exec i s = acceptFlush (flushWrite i) s := by
  cases i <;> simp only [isFlush, Bool.false_eq_true] at hi <;> rfl

theorem exec_of_mode {i : Instr} (hi : i.category = .mode) (s : State) :
    exec i s = acceptMode (modeWrite s.cfg i) s := by
  cases i <;> simp only [Instr.category, reduceCtorEq] at hi <;> rfl

/-- Is the record a search access? -/
def isSearch : Instr → Bool
  | .commSearchAccess _ _ => true
  | _ => false

theorem exec_of_comm {i : Instr} (hi : i.category = .comm) (hs : isSearch i = false) (s : State) :
    exec i s = acceptComm i.optsB3.1 i s := by
  cases i <;> simp only [Instr.category, isSearch, reduceCtorEq] at hi hs <;> rfl

/-- A search access can only break the hazard rule (R176, R333). -/
theorem execCommSearchAccess_eq_next {o : CommOpts} {index : Half} {s t : State} :
    execCommSearchAccess o index s = .next t ↔
      s.brg.fault = .none ∧ s.brg.outstanding = true ∧ t = setDesync s := by
  unfold execCommSearchAccess
  rw [ifSound_eq_next]
  refine and_congr_right fun _ => ?_
  cases s.brg.outstanding <;> cases o.im <;> cases o.ac <;> cases (o.spu && o.ra) <;> simp [eq_comm]

/-! ### The inversion of `exec` -/

/-- Every way in which the bridge answers a record with a next state. -/
inductive Accepted (s : State) : Instr → State → Prop
  | reset : Accepted s .ctlResetDevice (deviceReset s)
  | hazard {i : Instr} (sound : s.brg.fault = .none) (out : s.brg.outstanding = true) :
      Accepted s i (setDesync s)
  | resume (sound : s.brg.fault = .none) :
      Accepted s .ctlResumeExe { s with brg := { s.brg with halt := false } }
  | halt (sound : s.brg.fault = .none) (off : s.brg.pulse = .off) :
      Accepted s .ctlHaltExe { s with brg := { s.brg with halt := true } }
  | haltPulse (sound : s.brg.fault = .none) (on : s.brg.pulse ≠ .off)
      (other : s.brg.exec = .busy → ∀ o type, s.brg.cur ≠ some (.commPulse o type)) :
      Accepted s .ctlHaltExe { s with brg := { s.brg with halt := true, pulse := .off } }
  | haltCommand {o : CommOpts} {type : PulseKind} (sound : s.brg.fault = .none) (on : s.brg.pulse ≠ .off)
      (busy : s.brg.exec = .busy) (cur : s.brg.cur = some (.commPulse o type)) :
      Accepted s .ctlHaltExe
        (completeCommand 0x00#8 { s with brg := { s.brg with halt := true, pulse := .off } })
  | flush {i : Instr} (sound : s.brg.fault = .none) (free : flushBlocked s = false) (is : isFlush i = true) :
      Accepted s i { s with brg := flushWrite i s.brg }
  | wait {i : Instr} (sound : s.brg.fault = .none) (free : s.brg.outstanding = false)
      (is : i.category = .comm) (not : isSearch i = false) (opts : i.optsB3.1.executable = true)
      (halted : s.brg.halt = true) :
      Accepted s i { s with brg := { s.brg with cbuf := s.brg.cbuf ++ [i] } }
  | start {i : Instr} (sound : s.brg.fault = .none) (free : s.brg.outstanding = false)
      (is : i.category = .comm) (not : isSearch i = false) (opts : i.optsB3.1.executable = true)
      (running : s.brg.halt = false) :
      Accepted s i (startCommand i s)
  | mode {i : Instr} (sound : s.brg.fault = .none) (free : s.brg.outstanding = false)
      (is : i.category = .mode) :
      Accepted s i { s with brg := modeWrite s.cfg i s.brg }

theorem accepted_of_flush {i : Instr} {s t : State} (hi : isFlush i = true) (h : exec i s = .next t) :
    Accepted s i t := by
  rw [exec_of_flush hi] at h
  obtain ⟨sound, ⟨out, rfl⟩ | ⟨free, rfl⟩⟩ := acceptFlush_eq_next.mp h
  · exact .hazard sound (outstanding_of_flushBlocked out)
  · exact .flush sound free hi

theorem accepted_of_mode {i : Instr} {s t : State} (hi : i.category = .mode) (h : exec i s = .next t) :
    Accepted s i t := by
  rw [exec_of_mode hi] at h
  obtain ⟨sound, ⟨out, rfl⟩ | ⟨free, rfl⟩⟩ := acceptMode_eq_next.mp h
  · exact .hazard sound out
  · exact .mode sound free hi

theorem accepted_of_comm {i : Instr} {s t : State} (hi : i.category = .comm) (hs : isSearch i = false)
    (h : exec i s = .next t) : Accepted s i t := by
  rw [exec_of_comm hi hs] at h
  obtain ⟨sound, ⟨out, rfl⟩ | ⟨free, im, ac, ep, h⟩⟩ := acceptComm_eq_next.mp h
  · exact .hazard sound out
  · have opts : i.optsB3.1.executable = true := by simp only [CommOpts.executable, im, ac, ep]; rfl
    obtain ⟨halted, rfl⟩ | ⟨running, rfl⟩ := h
    · exact .wait sound free hi hs opts halted
    · exact .start sound free hi hs opts running

theorem accepted_of_haltPulse {s t : State} (sound : s.brg.fault = .none) (on : s.brg.pulse ≠ .off)
    (h : execCtlHaltExe.haltPulse { s with brg := { s.brg with halt := true } } = t) :
    Accepted s .ctlHaltExe t := by
  unfold execCtlHaltExe.haltPulse at h
  dsimp only at h
  split at h <;> subst h
  next busy cur => exact .haltCommand sound on busy cur
  next other => exact .haltPulse sound on fun busy o type cur => other o type busy cur

theorem accepted_of_halt {s t : State} (h : execCtlHaltExe s = .next t) : Accepted s .ctlHaltExe t := by
  unfold execCtlHaltExe at h
  obtain ⟨sound, hp⟩ := ifSound_eq_next.mp h
  dsimp only at hp
  split at hp
  next off => cases hp; exact .halt sound off
  next on => exact accepted_of_haltPulse sound (by simp [on]) (Host.Outcome.next.inj hp)
  next on => exact accepted_of_haltPulse sound (by simp [on]) (Host.Outcome.next.inj hp)

/-- All a record can do when it arrives. -/
theorem accepted_of_exec {i : Instr} {s t : State} (h : exec i s = .next t) : Accepted s i t := by
  cases hi : i.category with
  | mode => exact accepted_of_mode hi h
  | comm =>
    cases hs : isSearch i with
    | false => exact accepted_of_comm hi hs h
    | true =>
      cases i <;> simp only [isSearch, Bool.false_eq_true] at hs
      case commSearchAccess o index =>
        obtain ⟨sound, out, rfl⟩ := (execCommSearchAccess_eq_next (index := index)).mp h
        exact .hazard sound out
  | control =>
    cases i <;> simp only [Instr.category, reduceCtorEq] at hi
    case ctlResetDevice => cases h; exact .reset
    case ctlResumeExe =>
      obtain ⟨sound, h⟩ := ifSound_eq_next.mp h
      cases h
      exact .resume sound
    case ctlHaltExe => exact accepted_of_halt h
    all_goals exact accepted_of_flush rfl h

/-- A record leaves everything but the bridge and the counter of draws as it was. -/
theorem exec_frame {i : Instr} {s t : State} (h : exec i s = .next t) :
    t = { s with brg := t.brg, draws := t.draws } := by
  cases accepted_of_exec h <;> rfl

theorem exec_cfg {i : Instr} {s t : State} (h : exec i s = .next t) : t.cfg = s.cfg := by
  rw [exec_frame h]

theorem exec_seq {i : Instr} {s t : State} (h : exec i s = .next t) : t.seq = s.seq := by
  rw [exec_frame h]

/-- A record that reaches the bridge is a record that decodes, seen on the Transport. -/
theorem deliver_eq_next {w : CmdWord} {s t : State} :
    deliver w s = .next t ↔ ∃ i, decode s.cfg w = .ok i ∧ exec i (s.logControl w) = .next t := by
  unfold deliver
  cases decode s.cfg w <;> simp

end Sys2Proof.Proofs
end

section
/-! Everything a step of the bridge engine can do (41_comm_commands.md R170): the bodies one by one, then the
step itself. -/

namespace Sys2Proof.Proofs

open Sys2Proof.Machine Sys2Proof.Laws

/-! ### Registers after the shared operations -/


theorem afterBody_brg (o : CommOpts) (s : State) :
    (afterBody o s).brg = { s.brg with stage := o.stageAfterBody } := rfl

@[simp] theorem stageAfterBody_ne_body (o : CommOpts) : o.stageAfterBody ≠ .body := by
  unfold CommOpts.stageAfterBody
  split_ifs <;> simp

/-- One slot assembles one bit of the echo. -/
theorem shiftSlot_brg (s : State) :
    (shiftSlot s).brg = { s.brg with
      e := setBit s.brg.e s.brg.k (wireSlot (s.brg.x.getLsbD s.brg.k) s).1, k := s.brg.k + 1 } := by
  simp [shiftSlot]

/-- What a request to the WIRE, and the registers of the bridge, leave unchanged. -/
def EngineFrame (s t : State) : Prop :=
  t = { s with brg := t.brg, wire := t.wire, draws := t.draws, trace := t.trace }

theorem EngineFrame.refl (s : State) : EngineFrame s s := rfl

theorem EngineFrame.trans {s t u : State} (h : EngineFrame s t) (k : EngineFrame t u) : EngineFrame s u := by
  rw [EngineFrame] at *
  rw [k, h]

theorem EngineFrame.cfg {s t : State} (h : EngineFrame s t) : t.cfg = s.cfg := by rw [h]
theorem EngineFrame.seq {s t : State} (h : EngineFrame s t) : t.seq = s.seq := by rw [h]

/-- Any update of the bridge's registers is within the frame. -/
theorem EngineFrame.setBrg {s t : State} (h : EngineFrame s t) (b : Brg) :
    EngineFrame s { t with brg := b } := h.trans rfl

theorem wireSlot_engineFrame (b : Bool) (s : State) : EngineFrame s (wireSlot b s).2 := by
  obtain ⟨w, d, h⟩ := wireSlot_frame b s
  rw [h]; rfl

theorem wireReset_engineFrame (s : State) : EngineFrame s (wireReset s).2 := by
  obtain ⟨w, d, h⟩ := wireReset_frame s
  rw [h]; rfl

theorem shiftSlot_engineFrame (s : State) : EngineFrame s (shiftSlot s) :=
  (wireSlot_engineFrame _ s).setBrg _

/-! ### The bodies (R173 to R178) -/

theorem endByte_eq_next {s t : State} {k : State → Out} :
    endByte s k = .next t ↔ s.brg.rbuf.length < s.cfg.bufCap ∧
      k { s with brg := { s.brg with k := 0, e := 0#8, rbuf := s.brg.rbuf ++ [s.brg.e] } } = .next t :=
  pushRead_eq_next

theorem bodyCommBitIo_eq_next {o : CommOpts} {d : Bool} {s t : State} :
    bodyCommBitIo o d s = .next t ↔ s.brg.rbuf.length < s.cfg.bufCap ∧
      t = afterBody o { (wireSlot d s).2 with
        brg := { s.brg with rbuf := s.brg.rbuf ++ [setBit 0#8 0 (wireSlot d s).1] } } := by
  unfold bodyCommBitIo
  rw [pushRead_eq_next]
  simp [eq_comm]

/-- A pulse command delivers its pulse, or skips it, a programming pulse without its supply with the bit
`VPP` in the result (R178). -/
theorem bodyCommPulse_next {o : CommOpts} {type : PulseKind} {s t : State}
    (h : bodyCommPulse o type s = .next t) :
    t = afterBody o s ∨ t = afterBody o (addResult Config.rrVPP s) ∨ t = beginPullUp s ∨
      t = beginProgram s := by
  cases type <;> simp only [bodyCommPulse] at h <;> split_ifs at h <;> cases h <;> simp

/-- A slot of a byte command: within the byte, or the last one. -/
theorem bodyCommByteIo_next {o : CommOpts} {x : Byte} {s t : State} (h : bodyCommByteIo o x s = .next t)
    {u : State} (hu : u = shiftSlot { s with brg := { s.brg with x := x } }) :
    u.brg.k ≠ 8 ∧ t = u ∨
      u.brg.k = 8 ∧ u.brg.rbuf.length < u.cfg.bufCap ∧ t = afterBody o { u with
        brg := { u.brg with k := 0, e := 0#8, rbuf := u.brg.rbuf ++ [u.brg.e] } } := by
  simp only [bodyCommByteIo, ← hu] at h
  split_ifs at h with hk
  · obtain ⟨room, h⟩ := endByte_eq_next.mp h
    cases h
    exact .inr ⟨hk, room, rfl⟩
  · cases h
    exact .inl ⟨hk, rfl⟩

/-- At the first slot of a byte the oldest byte of `WBUF` is taken; at the others it is there already. -/
theorem loadByte_eq_next {s t : State} {k : State → Out} :
    loadByte s k = .next t ↔
      (s.brg.k = 0 ∧ ∃ x rest, s.brg.wbuf = x :: rest ∧
        k { s with brg := { s.brg with x := x, wbuf := rest } } = .next t) ∨
      (s.brg.k ≠ 0 ∧ k s = .next t) := by
  unfold loadByte
  split_ifs with hk
  · cases s.brg.wbuf <;> simp [hk]
  · simp [hk]

/-- What a block command's step makes of the state with its byte loaded: a slot within the byte, the last
slot of a byte, or the last slot of the last byte. -/
def BlockSlot (o : CommOpts) (n : Half) (u t : State) : Prop :=
  u.brg.k ≠ 8 ∧ t = u ∨
    u.brg.k = 8 ∧ u.brg.rbuf.length < u.cfg.bufCap ∧
      ∃ v, v = { u with brg := { u.brg with
          k := 0, e := 0#8, rbuf := u.brg.rbuf ++ [u.brg.e], m := u.brg.m + 1 } } ∧
        (v.brg.m < n.toNat ∧ t = v ∨ n.toNat ≤ v.brg.m ∧ t = afterBody o v)

theorem bodyCommBlockIo_next {o : CommOpts} {n : Half} {s t : State} (h : bodyCommBlockIo o n s = .next t) :
    (s.brg.k = 0 → s.brg.m = 0 →
      n.toNat ≤ s.brg.wbuf.length ∧ s.brg.rbuf.length + n.toNat ≤ s.cfg.bufCap) ∧
    ((s.brg.k = 0 ∧ ∃ x rest, s.brg.wbuf = x :: rest ∧
        BlockSlot o n (shiftSlot { s with brg := { s.brg with x := x, wbuf := rest } }) t) ∨
      (s.brg.k ≠ 0 ∧ BlockSlot o n (shiftSlot s) t)) := by
  have slot {u : State}
      (h : (if u.brg.k = 8 then
          endByte u fun v =>
            let w : State := { v with brg := { v.brg with m := v.brg.m + 1 } }
            if n.toNat ≤ w.brg.m then .next (afterBody o w) else .next w
        else .next u) = .next t) : BlockSlot o n u t := by
    split_ifs at h with hk
    · obtain ⟨room, h⟩ := endByte_eq_next.mp h
      refine .inr ⟨hk, room, _, rfl, ?_⟩
      dsimp only at h
      split_ifs at h with hm <;> cases h
      · exact .inr ⟨hm, rfl⟩
      · exact .inl ⟨Nat.lt_of_not_le hm, rfl⟩
    · cases h
      exact .inl ⟨hk, rfl⟩
  unfold bodyCommBlockIo at h
  split_ifs at h with hb
  refine ⟨fun hk hm => ?_, ?_⟩
  · by_contra hc
    exact hb ⟨hk, hm, hc⟩
  · obtain ⟨hk, x, rest, hw, h⟩ | ⟨hk, h⟩ := loadByte_eq_next.mp h
    · exact .inl ⟨hk, x, rest, hw, slot h⟩
    · exact .inr ⟨hk, slot h⟩

/-! ### The step of the engine -/

/-- Every way in which the bridge engine makes a step. -/
inductive EngineStep (s : State) : State → Prop
  | rest : EngineStep s s
  | start {i : Instr} {rest : List Instr} (idle : s.brg.exec = .idle) (running : s.brg.halt = false)
      (waiting : s.brg.cbuf = i :: rest) :
      EngineStep s (startCommand i { s with brg := { s.brg with cbuf := rest } })
  | body {i : Instr} {t : State} (busy : s.brg.exec = .busy) (cur : s.brg.cur = some i)
      (stage : s.brg.stage = .body) (step : bodyStep i s = .next t) : EngineStep s t
  | resetAfter {i : Instr} (busy : s.brg.exec = .busy) (cur : s.brg.cur = some i)
      (stage : s.brg.stage = .resetAfter) : EngineStep s (resetEpilogue i s)
  | pullUp {i : Instr} (busy : s.brg.exec = .busy) (cur : s.brg.cur = some i)
      (stage : s.brg.stage = .pullUp) : EngineStep s (pullUpEpilogue s)
  | pulseOver {i : Instr} (busy : s.brg.exec = .busy) (cur : s.brg.cur = some i)
      (stage : s.brg.stage = .pulsing) (ended : s.brg.pulse.over = true) :
      EngineStep s (completeCommand s.brg.res { s with brg := { s.brg with pulse := .off } })
  | finish {i : Instr} (busy : s.brg.exec = .busy) (cur : s.brg.cur = some i)
      (stage : s.brg.stage = .finish) : EngineStep s (completeCommand s.brg.res s)

/-- All a step of the bridge engine can do. -/
theorem engineStep_of_brgStep {s t : State} (h : brgStep s = .next t) :
    s.brg.fault = .none ∧ EngineStep s t := by
  unfold brgStep at h
  obtain ⟨sound, h⟩ := ifSound_eq_next.mp h
  refine ⟨sound, ?_⟩
  split at h
  next idle =>
    split at h <;> cases h
    next running waiting => exact .start idle running waiting
    all_goals exact .rest
  next => cases h; exact .rest
  next busy cur =>
    split at h
    next stage => exact .body busy cur stage h
    next stage => cases h; exact .resetAfter busy cur stage
    next stage => cases h; exact .pullUp busy cur stage
    next stage =>
      cases h
      unfold pulseStep
      split_ifs with ended
      · exact .pulseOver busy cur stage ended
      · exact .rest
    next stage => cases h; exact .finish busy cur stage

/-! ### The frame of the engine: the WIRE, the counter of draws and the trace beside the bridge -/

theorem afterBody_engineFrame (o : CommOpts) (s : State) : EngineFrame s (afterBody o s) := rfl

theorem blockSlot_engineFrame {o : CommOpts} {n : Half} {s u t : State} (hu : EngineFrame s u)
    (h : BlockSlot o n u t) : EngineFrame s t := by
  obtain ⟨-, rfl⟩ | ⟨-, -, v, rfl, ⟨-, rfl⟩ | ⟨-, rfl⟩⟩ := h
  · exact hu
  · exact hu.setBrg _
  · exact (hu.setBrg _).trans (afterBody_engineFrame o _)

theorem bodyStep_engineFrame {i : Instr} {s t : State} (h : bodyStep i s = .next t) : EngineFrame s t := by
  cases i
  case commSetDuration o type code => cases h; cases type <;> rfl
  case commBitIo o d =>
    obtain ⟨-, rfl⟩ := bodyCommBitIo_eq_next.mp h
    exact ((wireSlot_engineFrame d s).setBrg _).trans (afterBody_engineFrame o _)
  case commPulse o type =>
    obtain rfl | rfl | rfl | rfl := bodyCommPulse_next h <;> rfl
  case commOnewireReset o se speed =>
    cases h
    refine EngineFrame.trans (t := if se then { s with brg := { s.brg with speed := speed } } else s) ?_
      ((wireReset_engineFrame _).trans rfl)
    cases se <;> rfl
  case commByteIo o x =>
    have hu := (EngineFrame.refl s).setBrg { s.brg with x := x } |>.trans (shiftSlot_engineFrame _)
    obtain ⟨-, rfl⟩ | ⟨-, -, rfl⟩ := bodyCommByteIo_next h rfl
    · exact hu
    · exact (hu.setBrg _).trans (afterBody_engineFrame o _)
  case commBlockIo o n =>
    obtain ⟨-, ⟨-, x, rest, -, h⟩ | ⟨-, h⟩⟩ := bodyCommBlockIo_next h
    · exact blockSlot_engineFrame (((EngineFrame.refl s).setBrg _).trans (shiftSlot_engineFrame _)) h
    · exact blockSlot_engineFrame (shiftSlot_engineFrame s) h
  all_goals cases h; rfl

theorem engineStep_frame {s t : State} (h : EngineStep s t) : EngineFrame s t := by
  cases h with
  | rest | start | pulseOver | finish => rfl
  | body _ _ _ step => exact bodyStep_engineFrame step
  | resetAfter => exact (wireReset_engineFrame s).trans rfl
  | pullUp => unfold pullUpEpilogue; split_ifs <;> rfl

end Sys2Proof.Proofs
end

section
/-! The invariant of the bridge engine, register group by register group, and its preservation by every
record and every engine step (10_state.md R50 to R64). -/

namespace Sys2Proof.Proofs

open Sys2Proof.Machine Sys2Proof.Laws

/-! ### The engine's working registers -/

/-- The registers that hold idle values while nothing is in execution. -/
def engine (b : Brg) : Exec × Option Instr × Nat × Nat × Stage × Byte × Byte × Byte :=
  (b.exec, b.cur, b.k, b.m, b.stage, b.x, b.e, b.res)

theorem eq_atRest_iff {b : Brg} : b = b.atRest ↔ b.exec = .idle ∧ b.cur = none ∧ b.k = 0 ∧ b.m = 0 ∧
    b.stage = .body ∧ b.x = 0#8 ∧ b.e = 0#8 ∧ b.res = 0#8 := by
  cases b
  simp [Brg.atRest]

/-- Whether an idle engine is at its idle values is a matter of its working registers alone. -/
theorem idle_of_engine_eq {c : Config} {b b' : Brg} (h : b.Inv c) (he : engine b' = engine b)
    (hp : b.pulse = .off → b'.pulse = .off) : b'.exec = .idle → b' = b'.atRest ∧ b'.pulse = .off := by
  have hi := h.idle
  simp only [engine, Prod.mk.injEq] at he
  simp only [eq_atRest_iff, he] at hi ⊢
  exact fun idle => ⟨(hi idle).1, hp (hi idle).2⟩

/-- A bridge with nothing outstanding has an idle engine and nothing waiting. -/
theorem not_outstanding_iff {b : Brg} : b.outstanding = false ↔ b.exec = .idle ∧ b.cbuf = [] := by
  cases h : b.exec <;> simp [Brg.outstanding, h]

section Invariant

variable {c : Config} {b : Brg}

/-- Nothing executes in an idle engine. -/
theorem cur_of_idle (h : b.Inv c) (idle : b.exec = .idle) : b.cur = none :=
  (eq_atRest_iff.mp (h.idle idle).1).2.1

/-- The registers that the invariant does not speak of. -/
def strip (b : Brg) : Brg :=
  { b with spud := 0#8, ppd := 0#8, slew := 0#8, tp0 := 0#8, tp1 := 0#8, halt := false, epof := false,
           fault := .none }

theorem inv_strip : (strip b).Inv c ↔ b.Inv c :=
  ⟨fun h => { h with idle := idle_of_engine_eq h rfl id },
    fun h => { h with idle := idle_of_engine_eq h rfl id }⟩

/-- A write of registers that the invariant does not speak of keeps it. -/
theorem inv_of_strip_eq {b' : Brg} (h : b.Inv c) (hs : strip b' = strip b) : b'.Inv c :=
  inv_strip.mp (hs ▸ inv_strip.mpr h)

/-- The buffers may change while nothing executes. -/
theorem inv_setBuffers (h : b.Inv c) (idle : b.exec = .idle) {cbuf : List Instr} {wbuf rbuf : List Byte}
    (hc : cbuf.length ≤ 1) (ha : cbuf.all (Instr.runnable c) = true) (hw : wbuf.length ≤ c.bufCap)
    (hr : rbuf.length ≤ c.bufCap) : Brg.Inv c { b with cbuf := cbuf, wbuf := wbuf, rbuf := rbuf } :=
  { h with
    idle := idle_of_engine_eq h rfl id
    wbuf := hw
    rbuf := hr
    oneWaiting := hc
    waitsIdle := fun _ => idle
    waiting := ha
    block := fun o n hcur => by simp [cur_of_idle h idle] at hcur }

/-- Result bytes may be read, and legal ones added. -/
theorem inv_setResults (h : b.Inv c) {resq : List Byte} (hr : resq.all legalResult = true) :
    Brg.Inv c { b with resq := resq } :=
  { h with idle := idle_of_engine_eq h rfl id, results := hr }

theorem inv_addResult (h : b.Inv c) {r : Byte} (hr : legalResult r = true) :
    Brg.Inv c { b with resq := b.resq ++ [r] } :=
  inv_setResults h (by simp [h.results, hr])

/-- Bytes may leave the read buffer at any time: a block under way only gains room. -/
theorem inv_dropRead (h : b.Inv c) (n : Nat) : Brg.Inv c { b with rbuf := b.rbuf.drop n } :=
  have shorter : (b.rbuf.drop n).length ≤ b.rbuf.length := by simp
  { h with
    idle := idle_of_engine_eq h rfl id
    rbuf := shorter.trans h.rbuf
    block := fun o m hcur hst hkm =>
      have ⟨h₁, h₂, h₃⟩ := h.block o m hcur hst hkm
      ⟨h₁, h₂, (Nat.add_le_add_right shorter _).trans h₃⟩ }

theorem drain_eq_off (ms : Nat) (p : Pulse) : p.drain ms = .off ↔ p = .off := by
  cases p <;> simp [Pulse.drain]

theorem inv_drainPulse (h : b.Inv c) (ms : Nat) : Brg.Inv c { b with pulse := b.pulse.drain ms } :=
  { h with
    idle := idle_of_engine_eq h rfl (drain_eq_off ms _).mpr
    pulsing := fun hp => h.pulsing ((drain_eq_off ms _).not.mp hp) }

/-- A pulse may be cut off. -/
theorem inv_pulseOff (h : b.Inv c) : Brg.Inv c { b with pulse := .off } :=
  { h with
    idle := idle_of_engine_eq h rfl fun _ => rfl
    pulsing := fun hp => absurd rfl hp }

theorem inv_setEnable (h : b.Inv c) (spue prge spce : Bool) :
    Brg.Inv c { b with en := enableFlags c spue prge spce } :=
  { h with
    idle := idle_of_engine_eq h rfl id
    enable := by
      apply BitVec.eq_of_getLsbD_eq
      intro i hi
      cases spue <;> cases prge <;> cases spce <;> simp [enableFlags, flagIf, hi] <;> grind }

theorem inv_setSpeed (h : b.Inv c) {v : Byte} (hv : legalSpeed c v = true) :
    Brg.Inv c { b with speed := v } :=
  { h with idle := idle_of_engine_eq h rfl id, speed := hv }

/-- The start of a command on an idle engine with nothing else waiting (R170). -/
theorem inv_start (h : b.Inv c) (idle : b.exec = .idle) (empty : b.cbuf = []) {i : Instr}
    (hi : i.runnable c = true) : Brg.Inv c { b with
      exec := .busy, cur := some i, curcmd := i.value c, k := 0, m := 0, stage := .body, x := 0#8,
      e := 0#8, res := 0#8 } :=
  { h with
    result := by simp
    waitsIdle := fun hne => absurd empty hne
    idle := fun he => by cases he
    busy := fun _ => ⟨i, rfl, hi, rfl⟩
    slots := by simp
    pulsing := fun hp => absurd (h.idle idle).2 hp
    block := fun _ _ _ _ hkm => by simp at hkm }

/-- The completion of a command whose pulse, if it had one, has ended (R170). -/
theorem inv_complete (h : b.Inv c) (off : b.pulse = .off) {r : Byte} (hr : legalResult r = true) :
    Brg.Inv c { b with
      resq := b.resq ++ [r], exec := .idle, cur := none, k := 0, m := 0, stage := .body, x := 0#8,
      e := 0#8, res := 0#8 } :=
  { h with
    results := by simp [h.results, hr]
    result := by simp
    waitsIdle := fun _ => rfl
    idle := fun _ => ⟨rfl, off⟩
    busy := fun he => by cases he
    slots := by simp
    pulsing := fun hp => absurd off hp
    block := fun _ _ hcur => by cases hcur }

/-- The registers a step of a command in execution does not touch. -/
def kept (b : Brg) : Byte × List Instr × List Byte × Exec × Option Instr × Half :=
  (b.en, b.cbuf, b.resq, b.exec, b.cur, b.curcmd)

/-- What a step of a command in execution has to show of the registers it may touch. -/
theorem inv_of_kept {b' : Brg} (h : b.Inv c) (busy : b.exec = .busy) (hk : kept b' = kept b)
    (speed : legalSpeed c b'.speed = true) (wbuf : b'.wbuf.length ≤ c.bufCap)
    (rbuf : b'.rbuf.length ≤ c.bufCap) (result : b'.res &&& 0xF0#8 = 0#8) (slots : b'.k < 8)
    (pulsing : b'.pulse ≠ .off → b'.stage = .pulsing)
    (block : ∀ o n, b.cur = some (.commBlockIo o n) → b'.stage = .body → (b'.k ≠ 0 ∨ b'.m ≠ 0) →
      b'.blockSupplied c n) : b'.Inv c := by
  simp only [kept, Prod.mk.injEq] at hk
  obtain ⟨en, cbuf, resq, exec, cur, curcmd⟩ := hk
  constructor
  case enable => rw [en]; exact h.enable
  case results => rw [resq]; exact h.results
  case oneWaiting => rw [cbuf]; exact h.oneWaiting
  case waitsIdle => rw [cbuf, exec]; exact h.waitsIdle
  case waiting => rw [cbuf]; exact h.waiting
  case idle => rw [exec, busy]; rintro ⟨⟩
  case busy => rw [exec, cur, curcmd]; exact h.busy
  case pulsing => exact fun hp => ⟨exec.trans busy, pulsing hp⟩
  case block => rw [cur]; exact block
  all_goals assumption

/-- The bridge after a power-on or a device reset (R70). -/
theorem inv_powerOn (c : Config) (d : Nat) (epof : Bool) :
    Brg.Inv c { Brg.powerOn c d with epof := epof } := by
  constructor <;> simp [Brg.powerOn, Brg.atRest, legalSpeed]

end Invariant

end Sys2Proof.Proofs
end

section
/-! Records and engine steps keep the invariant of the bridge. -/

namespace Sys2Proof.Proofs

open Sys2Proof.Machine Sys2Proof.Laws

/-! ### Records -/

theorem runnable_of_accepted {c : Config} {i : Instr} (is : i.category = .comm) (not : isSearch i = false)
    (opts : i.optsB3.1.executable = true) (hw : i.wellFormed c = true) : i.runnable c = true := by
  cases i <;> simp_all [Instr.category, isSearch, Instr.optsB3, Instr.runnable]

theorem inv_modeWrite {c : Config} {b : Brg} (h : b.Inv c) {i : Instr} (hw : i.wellFormed c = true) :
    (modeWrite c i b).Inv c := by
  cases i
  case modePulseEn spue prge => exact inv_setEnable h _ _ _
  case modeSpeedChangeEn spce => exact inv_setEnable h _ _ _
  case modeBusSpeed speed => exact inv_setSpeed h hw
  all_goals exact inv_of_strip_eq h rfl

theorem inv_flushWrite {c : Config} {b : Brg} (h : b.Inv c) (idle : b.exec = .idle) (i : Instr) :
    (flushWrite i b).Inv c := by
  cases i
  case ctlFlushComm => exact inv_setBuffers h idle (Nat.zero_le _) rfl h.wbuf h.rbuf
  case ctlFlushRead => exact inv_setBuffers h idle h.oneWaiting h.waiting h.wbuf (Nat.zero_le _)
  case ctlFlushWrite => exact inv_setBuffers h idle h.oneWaiting h.waiting (Nat.zero_le _) h.rbuf
  all_goals exact h

theorem inv_accepted {i : Instr} {s t : State} (hw : i.wellFormed s.cfg = true) (h : Accepted s i t)
    (hi : s.brg.Inv s.cfg) : t.brg.Inv s.cfg := by
  cases h with
  | reset => exact inv_powerOn s.cfg s.draws false
  | hazard | resume | halt => exact inv_of_strip_eq hi rfl
  | haltPulse => exact inv_of_strip_eq (inv_pulseOff hi) rfl
  | haltCommand => exact inv_of_strip_eq (inv_complete (inv_pulseOff hi) rfl (r := 0x00#8) rfl) rfl
  | flush _ free _ => exact inv_flushWrite hi (flushBlocked_eq_false.mp free).1 i
  | wait _ free is not opts _ =>
    obtain ⟨idle, empty⟩ := not_outstanding_iff.mp free
    have hr := runnable_of_accepted is not opts hw
    exact inv_setBuffers hi idle (by simp [empty]) (by simp [empty, hr]) hi.wbuf hi.rbuf
  | start _ free is not opts _ =>
    obtain ⟨idle, empty⟩ := not_outstanding_iff.mp free
    exact inv_start hi idle empty (runnable_of_accepted is not opts hw)
  | mode => exact inv_modeWrite hi hw

theorem inv_deliver {w : CmdWord} {s t : State} (h : deliver w s = .next t) (hi : s.brg.Inv s.cfg) :
    t.brg.Inv s.cfg := by
  obtain ⟨i, hd, he⟩ := deliver_eq_next.mp h
  exact inv_accepted (s := s.logControl w) (decode_wellFormed hd) (accepted_of_exec he) hi

/-! ### Bodies -/

/-- The two low bits, and the bits `VPP` and `APP`, are all a command's result can have (R67). -/
theorem resetResult_low (a : ResetAnswer) : resetResult a &&& 0xF0#8 = 0#8 := by
  obtain ⟨presence, short, alarm⟩ := a
  cases presence <;> cases short <;> cases alarm <;> decide

theorem or_low {a b : Byte} (ha : a &&& 0xF0#8 = 0#8) (hb : b &&& 0xF0#8 = 0#8) :
    (a ||| b) &&& 0xF0#8 = 0#8 := by
  rw [BitVec.and_or_distrib_right, ha, hb]; rfl

theorem legalResult_of_low {r : Byte} (h : r &&& 0xF0#8 = 0#8) : legalResult r = true := by
  simp [legalResult, h]

section Body

variable {s t : State} (hi : s.brg.Inv s.cfg) (busy : s.brg.exec = .busy)
include hi

theorem off_of_stage (hs : s.brg.stage ≠ .pulsing) : s.brg.pulse = .off := by
  by_contra hp
  exact hs (hi.pulsing hp).2

include busy

/-- A command that goes on to a stage after its body, whatever the step wrote on the way. -/
theorem inv_toStage {b : Brg} {g : Stage} (stage : s.brg.stage ≠ .pulsing) (hg : g ≠ .body)
    (hk : kept b = kept s.brg)
    (speed : legalSpeed s.cfg b.speed = true) (wbuf : b.wbuf.length ≤ s.cfg.bufCap)
    (rbuf : b.rbuf.length ≤ s.cfg.bufCap) (result : b.res &&& 0xF0#8 = 0#8) (slots : b.k < 8)
    (pulse : b.pulse = s.brg.pulse) : Brg.Inv s.cfg { b with stage := g } :=
  inv_of_kept (b' := { b with stage := g }) hi busy hk speed wbuf rbuf result slots
    (fun hp => absurd (pulse.trans (off_of_stage hi stage)) hp) (fun _ _ _ hb => absurd hb hg)

/-- A command that leaves its body, whatever the body wrote. -/
theorem inv_leaveBody {b : Brg} (stage : s.brg.stage = .body) (o : CommOpts) (hk : kept b = kept s.brg)
    (speed : legalSpeed s.cfg b.speed = true) (wbuf : b.wbuf.length ≤ s.cfg.bufCap)
    (rbuf : b.rbuf.length ≤ s.cfg.bufCap) (result : b.res &&& 0xF0#8 = 0#8) (slots : b.k < 8)
    (pulse : b.pulse = s.brg.pulse) : Brg.Inv s.cfg { b with stage := o.stageAfterBody } :=
  inv_toStage hi busy (by simp [stage]) (stageAfterBody_ne_body o) hk speed wbuf rbuf result slots pulse

theorem inv_beginPulse {b : Brg} (hb : b = { s.brg with pulse := b.pulse, stage := .pulsing }) :
    b.Inv s.cfg := by
  rw [hb]
  exact inv_of_kept hi busy rfl hi.speed hi.wbuf hi.rbuf hi.result hi.slots (fun _ => rfl)
    (fun _ _ _ hb => by cases hb)

/-- A command that stays in its body. -/
theorem inv_stayInBody {b : Brg} (stage : s.brg.stage = .body) (hk : kept b = kept s.brg)
    (speed : b.speed = s.brg.speed) (wbuf : b.wbuf.length ≤ s.cfg.bufCap)
    (rbuf : b.rbuf.length ≤ s.cfg.bufCap) (result : b.res = s.brg.res) (slots : b.k < 8)
    (pulse : b.pulse = s.brg.pulse)
    (block : ∀ o n, s.brg.cur = some (.commBlockIo o n) → b.blockSupplied s.cfg n) : b.Inv s.cfg :=
  inv_of_kept hi busy hk (speed ▸ hi.speed) wbuf rbuf (result ▸ hi.result) slots
    (fun hp => absurd (pulse.trans (off_of_stage hi (by simp [stage]))) hp)
    (fun o n hcur _ _ => block o n hcur)

/-! ### The block command (R175) -/

theorem blockSize_pos {o : CommOpts} {n : Half} (cur : s.brg.cur = some (.commBlockIo o n)) :
    1 ≤ n.toNat := by
  obtain ⟨i, hcur, hr, -⟩ := hi.busy busy
  obtain rfl : Instr.commBlockIo o n = i := Option.some.inj (cur.symm.trans hcur)
  simp only [Instr.runnable, Instr.wellFormed, Bool.and_eq_true, decide_eq_true_eq] at hr
  exact hr.2.1

end Body

/-- What a block needs once the byte to send is loaded: the bytes after it, and the room for all echoes
still to come. -/
def loadedSupply (c : Config) (b : Brg) (n : Half) : Prop :=
  b.m < n.toNat ∧ n.toNat ≤ b.wbuf.length + b.m + 1 ∧ b.rbuf.length + n.toNat ≤ c.bufCap + b.m

section Body

variable {s t : State} (hi : s.brg.Inv s.cfg) (busy : s.brg.exec = .busy) (stage : s.brg.stage = .body)
  {o : CommOpts} {n : Half} (cur : s.brg.cur = some (.commBlockIo o n))
include hi busy stage cur

/-- A slot of a block whose byte is loaded. -/
theorem inv_blockSlot {l : State} {x : Byte} {wbuf : List Byte} (hl : l.cfg = s.cfg)
    (hb : l.brg = { s.brg with x := x, wbuf := wbuf }) (hw : wbuf.length ≤ s.cfg.bufCap)
    (supply : loadedSupply s.cfg { s.brg with x := x, wbuf := wbuf } n)
    (h : BlockSlot o n (shiftSlot l) t) : t.brg.Inv s.cfg := by
  obtain ⟨h₁, h₂, h₃⟩ := supply
  dsimp only at h₁ h₂ h₃
  have hu := shiftSlot_brg l
  have hcfg : (shiftSlot l).cfg = s.cfg := (shiftSlot_engineFrame l).cfg.trans hl
  have slots := hi.slots
  generalize shiftSlot l = u at h hu hcfg
  rw [hb] at hu
  have same {i : CommOpts} {j : Half} (hcur : s.brg.cur = some (.commBlockIo i j)) : j = n := by
    rw [cur] at hcur
    exact ((Instr.commBlockIo.inj (Option.some.inj hcur)).2).symm
  obtain ⟨within, rfl⟩ | ⟨-, room, v, rfl, ⟨more, rfl⟩ | ⟨-, rfl⟩⟩ := h
  · rw [hu] at within ⊢
    exact inv_stayInBody hi busy stage rfl rfl hw hi.rbuf rfl (by dsimp only at within ⊢; omega) rfl
      fun i j hcur => by
        obtain rfl := same hcur
        exact ⟨h₁, by simpa using h₂, h₃⟩
  · rw [hu, hcfg] at room
    simp only [hu] at more ⊢
    exact inv_stayInBody hi busy stage rfl rfl hw (by simpa using room) rfl (by simp) rfl
      fun i j hcur => by
        obtain rfl := same hcur
        refine ⟨more, ?_, ?_⟩ <;> simp <;> omega
  · rw [hu, hcfg] at room
    rw [afterBody_brg]
    simp only [hu]
    exact inv_leaveBody
      (b := { s.brg with
        x := x, wbuf := wbuf, k := 0, e := 0#8, rbuf := s.brg.rbuf ++ [_], m := s.brg.m + 1 })
      hi busy stage o rfl hi.speed hw (by simpa using room) hi.result (by simp) rfl

theorem loadedSupply_of_start (hk : s.brg.k = 0) {x : Byte} {rest : List Byte} (hw : s.brg.wbuf = x :: rest)
    (enough : s.brg.m = 0 → n.toNat ≤ s.brg.wbuf.length ∧ s.brg.rbuf.length + n.toNat ≤ s.cfg.bufCap) :
    loadedSupply s.cfg { s.brg with x := x, wbuf := rest } n := by
  have hn := blockSize_pos hi busy cur
  simp only [hw, List.length_cons] at enough
  simp only [loadedSupply]
  by_cases hm : s.brg.m = 0
  · have := enough hm
    omega
  · obtain ⟨h₁, h₂, h₃⟩ := hi.block o n cur stage (.inr hm)
    simp only [hw, hk, List.length_cons, if_true] at h₂
    omega

omit busy in
theorem loadedSupply_of_inside (hk : s.brg.k ≠ 0) : loadedSupply s.cfg s.brg n := by
  obtain ⟨h₁, h₂, h₃⟩ := hi.block o n cur stage (.inl hk)
  simp only [hk, if_false] at h₂
  exact ⟨h₁, h₂, h₃⟩

theorem inv_bodyCommBlockIo (h : bodyCommBlockIo o n s = .next t) : t.brg.Inv s.cfg := by
  obtain ⟨enough, ⟨hk, x, rest, hw, h⟩ | ⟨hk, h⟩⟩ := bodyCommBlockIo_next h
  · have shorter : rest.length ≤ s.cfg.bufCap := by
      have := hi.wbuf
      simp only [hw, List.length_cons] at this
      omega
    exact inv_blockSlot hi busy stage cur (l := { s with brg := { s.brg with x := x, wbuf := rest } }) rfl rfl
      shorter (loadedSupply_of_start hi busy stage cur hk hw (enough hk)) h
  · exact inv_blockSlot hi busy stage cur rfl rfl hi.wbuf (loadedSupply_of_inside hi stage cur hk) h

end Body

/-! ### Every body, and every step of the engine -/

theorem addResult_brg (r : Byte) (s : State) :
    (addResult r s).brg = { s.brg with res := s.brg.res ||| r } := rfl

theorem toStage_brg (g : Stage) (s : State) : (toStage g s).brg = { s.brg with stage := g } := rfl

section Body

variable {s t : State} (hi : s.brg.Inv s.cfg) (busy : s.brg.exec = .busy)
include hi busy

theorem inv_bodyCommOnewireReset {o : CommOpts} {se : Bool} {speed : Byte} (stage : s.brg.stage = .body)
    (hs : se = true → legalSpeed s.cfg speed = true)
    (h : bodyCommOnewireReset o se speed s = .next t) : t.brg.Inv s.cfg := by
  have hr (a : ResetAnswer) := or_low hi.result (resetResult_low a)
  cases se <;> cases h <;> rw [afterBody_brg, addResult_brg, wireReset_brg]
  · exact inv_leaveBody (b := { s.brg with res := _ }) hi busy stage o rfl hi.speed hi.wbuf hi.rbuf (hr _)
      hi.slots rfl
  · exact inv_leaveBody (b := { s.brg with speed := speed, res := _ }) hi busy stage o rfl (hs rfl) hi.wbuf
      hi.rbuf (hr _) hi.slots rfl

theorem inv_bodyCommPulse {o : CommOpts} {type : PulseKind} (stage : s.brg.stage = .body)
    (h : bodyCommPulse o type s = .next t) : t.brg.Inv s.cfg := by
  obtain rfl | rfl | rfl | rfl := bodyCommPulse_next h
  · exact inv_leaveBody hi busy stage o rfl hi.speed hi.wbuf hi.rbuf hi.result hi.slots rfl
  · exact inv_leaveBody (b := { s.brg with res := _ }) hi busy stage o rfl hi.speed hi.wbuf hi.rbuf
      (or_low hi.result (by decide)) hi.slots rfl
  · exact inv_beginPulse hi busy rfl
  · exact inv_beginPulse hi busy rfl

theorem inv_bodyCommByteIo {o : CommOpts} {x : Byte} (stage : s.brg.stage = .body)
    (cur : s.brg.cur = some (.commByteIo o x)) (h : bodyCommByteIo o x s = .next t) :
    t.brg.Inv s.cfg := by
  have hu := shiftSlot_brg { s with brg := { s.brg with x := x } }
  have hcfg := (shiftSlot_engineFrame { s with brg := { s.brg with x := x } }).cfg
  have step := bodyCommByteIo_next h rfl
  have slots := hi.slots
  generalize shiftSlot { s with brg := { s.brg with x := x } } = u at hu hcfg step
  obtain ⟨within, rfl⟩ | ⟨-, room, rfl⟩ := step
  · rw [hu] at within ⊢
    exact inv_stayInBody hi busy stage rfl rfl hi.wbuf hi.rbuf rfl (by dsimp only at within ⊢; omega) rfl
      fun i j hcur => by simp [cur] at hcur
  · rw [hu, hcfg] at room
    rw [afterBody_brg]
    simp only [hu]
    exact inv_leaveBody (b := { s.brg with x := x, k := 0, e := 0#8, rbuf := s.brg.rbuf ++ [_] }) hi busy
      stage o rfl hi.speed hi.wbuf (by simpa using room) hi.result (by simp) rfl

theorem inv_bodyStep {i : Instr} (cur : s.brg.cur = some i) (stage : s.brg.stage = .body)
    (h : bodyStep i s = .next t) : t.brg.Inv s.cfg := by
  obtain ⟨j, hcur, runnable, -⟩ := hi.busy busy
  obtain rfl : i = j := Option.some.inj (cur.symm.trans hcur)
  cases i
  case commSetDuration o type code =>
    cases h
    cases type
    · exact inv_leaveBody (b := { s.brg with spud := code }) hi busy stage o rfl hi.speed hi.wbuf hi.rbuf
        hi.result hi.slots rfl
    · exact inv_leaveBody (b := { s.brg with ppd := code }) hi busy stage o rfl hi.speed hi.wbuf hi.rbuf
        hi.result hi.slots rfl
  case commBitIo o d =>
    obtain ⟨room, rfl⟩ := bodyCommBitIo_eq_next.mp h
    exact inv_leaveBody (b := { s.brg with rbuf := s.brg.rbuf ++ [_] }) hi busy stage o rfl hi.speed hi.wbuf
      (by simpa using room) hi.result hi.slots rfl
  case commPulse o type => exact inv_bodyCommPulse hi busy stage h
  case commOnewireReset o se speed =>
    refine inv_bodyCommOnewireReset hi busy stage (fun hse => ?_) h
    simp only [Instr.runnable, Instr.wellFormed, hse, if_true, Bool.and_eq_true] at runnable
    exact runnable.2.2
  case commByteIo o x => exact inv_bodyCommByteIo hi busy stage cur h
  case commBlockIo o n => exact inv_bodyCommBlockIo hi busy stage cur h
  all_goals cases runnable

end Body

theorem inv_engineStep {s t : State} (h : EngineStep s t) (hi : s.brg.Inv s.cfg) : t.brg.Inv s.cfg := by
  cases h with
  | rest => exact hi
  | @start i rest idle _ waiting =>
    have ha := hi.waiting
    have hl := hi.oneWaiting
    simp only [waiting, List.all_cons, Bool.and_eq_true, List.length_cons] at ha hl
    obtain rfl : rest = [] := List.length_eq_zero_iff.mp (by omega)
    exact inv_start (inv_setBuffers hi idle (cbuf := []) (Nat.zero_le _) rfl hi.wbuf hi.rbuf) idle rfl ha.1
  | body busy cur stage step => exact inv_bodyStep hi busy cur stage step
  | @resetAfter i busy _ stage =>
    unfold resetEpilogue
    rw [toStage_brg, addResult_brg, wireReset_brg]
    exact inv_toStage (b := { s.brg with res := _ }) hi busy (by simp [stage]) (by split_ifs <;> simp) rfl
      hi.speed hi.wbuf hi.rbuf (or_low hi.result (resetResult_low _)) hi.slots rfl
  | pullUp busy _ stage =>
    unfold pullUpEpilogue
    split_ifs
    · exact inv_beginPulse hi busy rfl
    · exact inv_toStage hi busy (by simp [stage]) (by simp) rfl hi.speed hi.wbuf hi.rbuf hi.result hi.slots
        rfl
  | pulseOver => exact inv_complete (inv_pulseOff hi) rfl (legalResult_of_low hi.result)
  | finish _ _ stage =>
    exact inv_complete hi (off_of_stage hi (by simp [stage])) (legalResult_of_low hi.result)

theorem inv_brgStep {s t : State} (h : brgStep s = .next t) (hi : s.brg.Inv s.cfg) : t.brg.Inv s.cfg :=
  inv_engineStep (engineStep_of_brgStep h).2 hi

end Sys2Proof.Proofs
end

section
/-! What a micro-step of the sequencer does to the bridge (10_state.md R36): nothing, one record, one bulk
transfer, or one status read. -/

namespace Sys2Proof.Proofs

open Sys2Proof.Machine Sys2Proof.Laws

/-! ### Updates of the sequencer alone -/

/-- Nothing but the sequencer and the trace has changed. -/
def SeqFrame (s t : State) : Prop := t = { s with seq := t.seq, trace := t.trace }

theorem SeqFrame.trans {s t u : State} (h : SeqFrame s t) (k : SeqFrame t u) : SeqFrame s u := by
  rw [SeqFrame] at *
  rw [k, h]

theorem SeqFrame.cfg {s t : State} (h : SeqFrame s t) : t.cfg = s.cfg := by rw [h]
theorem SeqFrame.brg {s t : State} (h : SeqFrame s t) : t.brg = s.brg := by rw [h]

theorem raiseError_seqFrame (e : ErrorKind) (s : State) : SeqFrame s (raiseError e s) := by
  unfold raiseError answerError
  split
  · rfl
  · rfl
  · split <;> rfl

@[simp] theorem raiseError_cfg (e : ErrorKind) (s : State) : (raiseError e s).cfg = s.cfg :=
  (raiseError_seqFrame e s).cfg

@[simp] theorem raiseError_brg (e : ErrorKind) (s : State) : (raiseError e s).brg = s.brg :=
  (raiseError_seqFrame e s).brg

theorem endPass_seqFrame (r : EndReason) (s : State) : SeqFrame s (endPass r s) := by
  unfold endPass
  split_ifs <;> rfl

theorem yieldRom_seqFrame (mode : SearchMode) (s : State) : SeqFrame s (yieldRom mode s) := by
  unfold yieldRom
  split_ifs <;> rfl

theorem beginPass_seqFrame (mode : SearchMode) (s : State) : SeqFrame s (beginPass mode s) := by
  unfold beginPass
  split_ifs
  · exact endPass_seqFrame _ s
  · rfl

theorem afterPresence_seqFrame (mode : SearchMode) (s : State) : SeqFrame s (afterPresence mode s) := by
  unfold afterPresence
  split_ifs
  · rfl
  · exact endPass_seqFrame _ s

theorem recordPosition_seqFrame (mode : SearchMode) (s : State) : SeqFrame s (recordPosition mode s) := by
  unfold recordPosition
  split
  · exact endPass_seqFrame _ s
  · dsimp only
    split_ifs <;> rfl

theorem finishPass_seqFrame (mode : SearchMode) (s : State) : SeqFrame s (finishPass mode s) := by
  unfold finishPass
  split_ifs
  · exact SeqFrame.trans (t := commitRom s) rfl (yieldRom_seqFrame mode _)
  · exact endPass_seqFrame _ s

theorem decodeTriplet_seqFrame (d : Bool) (s : State) : SeqFrame s (decodeTriplet d s) := by
  unfold decodeTriplet
  dsimp only
  split <;> rfl

theorem nextChunk_seqFrame (rest : List Byte) (s : State) : SeqFrame s (nextChunk rest s) := by
  unfold nextChunk
  split_ifs <;> rfl

theorem resetTail_seqFrame (s : State) : SeqFrame s (resetTail s) := by
  unfold resetTail
  split_ifs <;> rfl

theorem endPulse_seqFrame (s : State) : SeqFrame s (endPulse s) := by
  unfold endPulse
  split_ifs <;> rfl

theorem pollDecide_seqFrame {idle : Bool} {s t : State} (h : pollDecide idle s = .next t) : SeqFrame s t := by
  unfold pollDecide at h
  split_ifs at h <;> cases h
  · rfl
  · exact raiseError_seqFrame _ s
  · rfl

theorem pollOnce_seqFrame {st : List Byte} {s t : State} (h : pollOnce st s = .next t) : SeqFrame s t := by
  unfold pollOnce at h
  dsimp only at h
  split_ifs at h
  · cases h; rfl
  · refine SeqFrame.trans ?_ (pollDecide_seqFrame h)
    rfl

/-! ### The status read of the sequencer (R91, R221) -/

/-- The state after the call: the tail is drained. -/
def drained (s : State) : State := { s with brg := { s.brg with resq := [] } }.logStatus

/-- The state after the sequencer took the record. -/
def recordTaken (s : State) : State :=
  { drained s with seq := { s.seq with
    lastSf := recordFlags s.cfg (statusRecord s), rtail := s.seq.rtail ++ s.brg.resq } }

/-- A record that comes back whole is taken. -/
theorem takeRecord_statusRecord (k : List Byte → State → Out) (s : State) :
    takeRecord (statusRecord s) k (drained s) = k (statusRecord s) (recordTaken s) := by
  have long : ¬ (statusRecord s).length < Config.statusFixedLen := by rw [statusRecord_length]; omega
  rw [takeRecord, if_neg long, recordTail_statusRecord]
  rfl

theorem readStatus_ok {s : State} (sound : s.brg.fault = .none) (k : List Byte → State → Out) :
    readStatus .ok k s = k (statusRecord s) (recordTaken s) :=
  (ifSound_none sound _).trans (takeRecord_statusRecord k s)

/-- All a status read of the sequencer can do: a call that the bridge never saw, one that was lost or cut on
its way back, and one that went well. -/
theorem readStatus_next {fate : Fate} {k : List Byte → State → Out} {s t : State}
    (h : readStatus fate k s = .next t) :
    fate = .lost ∧ t = raiseError .transportError s ∨
      s.brg.fault = .none ∧
        (fate ≠ .ok ∧ fate ≠ .lost ∧ t = raiseError .transportError (drained s) ∨
          fate = .ok ∧ k (statusRecord s) (recordTaken s) = .next t) := by
  unfold readStatus at h
  cases fate with
  | lost => cases h; exact .inl ⟨rfl, rfl⟩
  | ok =>
    obtain ⟨sound, h⟩ := statusTransfer_eq_next.mp h
    exact .inr ⟨sound, .inr ⟨rfl, (takeRecord_statusRecord k s).symm.trans h⟩⟩
  | delivered =>
    obtain ⟨sound, h⟩ := statusTransfer_eq_next.mp h
    cases h
    exact .inr ⟨sound, .inl ⟨by simp, by simp, rfl⟩⟩
  | truncated n =>
    obtain ⟨sound, h⟩ := statusTransfer_eq_next.mp h
    have short : ((statusRecord s).take n).length < Config.statusFixedLen := by
      have := n.isLt
      simp only [List.length_take, Config.statusFixedLen]
      omega
    rw [takeRecord, if_pos short] at h
    cases h
    exact .inr ⟨sound, .inl ⟨by simp, by simp, rfl⟩⟩

/-! ### One micro-step and the bridge -/

/-- What a micro-step can make of the bridge. -/
inductive SeqOnBridge (s : State) : Micro → Brg → Prop
  | none {m : Micro} : SeqOnBridge s m s.brg
  | record {m : Micro} {w : CmdWord} {u : State}
      (sends : m = .ctl w ∨ ∃ idle, m = .pollReset idle ∧ w = encode s.cfg .ctlResetDevice)
      (arrives : deliver w s = .next u) : SeqOnBridge s m u.brg
  | write {bytes : List Byte} {u : State} (arrives : outTransfer bytes s = .next u) :
      SeqOnBridge s (.writeOut bytes) u.brg
  | status {m : Micro} (sound : s.brg.fault = .none) : SeqOnBridge s m { s.brg with resq := [] }
  | read {n : Nat} (sound : s.brg.fault = .none) :
      SeqOnBridge s (.readIn n) { s.brg with rbuf := s.brg.rbuf.drop n }

theorem SeqFrame.onBridge {s t : State} (h : SeqFrame s t) (m : Micro) :
    t.cfg = s.cfg ∧ SeqOnBridge s m t.brg := ⟨h.cfg, h.brg ▸ .none⟩

theorem deliver_cfg {w : CmdWord} {s t : State} (h : deliver w s = .next t) : t.cfg = s.cfg := by
  obtain ⟨i, -, he⟩ := deliver_eq_next.mp h
  have := exec_cfg he
  exact this

theorem outTransfer_cfg {bytes : List Byte} {s t : State} (h : outTransfer bytes s = .next t) :
    t.cfg = s.cfg := by
  obtain ⟨-, -, ⟨-, rfl⟩ | ⟨-, -, rfl⟩⟩ := outTransfer_eq_next.mp h <;> rfl

/-- A record the sequencer sends, and what follows it, which leaves the bridge alone. -/
theorem sendRecord_onBridge {fate : Fate} {w : CmdWord} {k : State → Out} {m : Micro} {s t : State}
    (sends : m = .ctl w ∨ ∃ idle, m = .pollReset idle ∧ w = encode s.cfg .ctlResetDevice)
    (hk : ∀ u v, k u = .next v → SeqFrame u v) (h : sendRecord fate w k s = .next t) :
    t.cfg = s.cfg ∧ SeqOnBridge s m t.brg := by
  obtain ⟨-, rfl⟩ | ⟨-, u, arrives, h⟩ | ⟨-, u, arrives, rfl⟩ := transport_eq_next.mp h
  · exact (raiseError_seqFrame _ s).onBridge m
  · have frame : SeqFrame u t := by
      refine SeqFrame.trans ?_ (hk _ _ h)
      split_ifs <;> rfl
    rw [frame.cfg, frame.brg]
    exact ⟨deliver_cfg arrives, .record sends arrives⟩
  · rw [raiseError_cfg, raiseError_brg]
    exact ⟨deliver_cfg arrives, .record sends arrives⟩

theorem setupCall_onBridge {fate : Fate} {ev : TraceEvent} {k : State → Out} {s t : State}
    (hk : ∀ u v, k u = .next v → SeqFrame u v) (h : setupCall fate ev k s = .next t) : SeqFrame s t := by
  obtain ⟨-, rfl⟩ | ⟨-, u, ⟨⟩, h⟩ | ⟨-, u, ⟨⟩, rfl⟩ := transport_eq_next.mp h
  · exact raiseError_seqFrame _ s
  · refine SeqFrame.trans ?_ (hk _ _ h)
    rfl
  · refine SeqFrame.trans ?_ (raiseError_seqFrame _ _)
    rfl

theorem readStatus_onBridge {fate : Fate} {k : List Byte → State → Out} {m : Micro} {s t : State}
    (hk : ∀ st u v, k st u = .next v → SeqFrame u v) (h : readStatus fate k s = .next t) :
    t.cfg = s.cfg ∧ SeqOnBridge s m t.brg := by
  obtain ⟨-, rfl⟩ | ⟨sound, ⟨-, -, rfl⟩ | ⟨-, h⟩⟩ := readStatus_next h
  · exact (raiseError_seqFrame _ s).onBridge m
  · rw [raiseError_cfg, raiseError_brg]
    exact ⟨rfl, .status sound⟩
  · rw [(hk _ _ _ h).cfg, (hk _ _ _ h).brg]
    exact ⟨rfl, .status sound⟩

/-- The state after a bulk read of the sequencer took its bytes from the bridge. -/
def bytesTaken (n : Nat) (s : State) : State :=
  { s with brg := { s.brg with rbuf := s.brg.rbuf.drop n } }.logIn (s.brg.rbuf.take n)

/-- All a bulk read of the sequencer can do. -/
theorem readIn_next {fate : Fate} {n : Nat} {s t : State} (h : readIn fate n s = .next t) :
    fate = .lost ∧ t = raiseError .transportError s ∨
      s.brg.fault = .none ∧ n ≠ 0 ∧
        ((fate ≠ .ok ∧ fate ≠ .lost ∨ s.brg.rbuf.length < n) ∧
            t = raiseError .transportError (bytesTaken n s) ∨
          fate = .ok ∧ n ≤ s.brg.rbuf.length ∧ t = { bytesTaken n s with seq :=
            { s.seq with bytes := s.seq.bytes ++ s.brg.rbuf.take n } }) := by
  unfold readIn at h
  cases fate with
  | lost => cases h; exact .inl ⟨rfl, rfl⟩
  | ok =>
    obtain ⟨sound, hn, h⟩ := inTransfer_eq_next.mp h
    refine .inr ⟨sound, hn, ?_⟩
    split_ifs at h with hl <;> cases h <;> simp only [List.length_take] at hl
    · exact .inl ⟨.inr (by omega), rfl⟩
    · exact .inr ⟨rfl, by omega, rfl⟩
  | delivered | truncated =>
    obtain ⟨sound, hn, h⟩ := inTransfer_eq_next.mp h
    cases h
    exact .inr ⟨sound, hn, .inl ⟨.inl ⟨by simp, by simp⟩, rfl⟩⟩

theorem readIn_onBridge {fate : Fate} {n : Nat} {s t : State} (h : readIn fate n s = .next t) :
    t.cfg = s.cfg ∧ SeqOnBridge s (.readIn n) t.brg := by
  obtain ⟨-, rfl⟩ | ⟨sound, -, ⟨-, rfl⟩ | ⟨-, -, rfl⟩⟩ := readIn_next h
  · exact (raiseError_seqFrame _ s).onBridge _
  · rw [raiseError_cfg, raiseError_brg]
    exact ⟨rfl, .read sound⟩
  · exact ⟨rfl, .read sound⟩

theorem writeOut_onBridge {fate : Fate} {bytes : List Byte} {s t : State}
    (h : transport fate (outTransfer bytes) .next s = .next t) :
    t.cfg = s.cfg ∧ SeqOnBridge s (.writeOut bytes) t.brg := by
  obtain ⟨-, rfl⟩ | ⟨-, u, arrives, ⟨⟩⟩ | ⟨-, u, arrives, rfl⟩ := transport_eq_next.mp h
  · exact (raiseError_seqFrame _ s).onBridge _
  · exact ⟨outTransfer_cfg arrives, .write arrives⟩
  · rw [raiseError_cfg, raiseError_brg]
    exact ⟨outTransfer_cfg arrives, .write arrives⟩

/-- A micro-step keeps the configuration, and does one thing at most to the bridge. -/
theorem microStep_onBridge {m : Micro} {fate : Fate} {s t : State} (h : microStep m fate s = .next t) :
    t.cfg = s.cfg ∧ SeqOnBridge s m t.brg := by
  have next {u v : State} (h : Host.Outcome.next u = (.next v : Out)) : SeqFrame u v := by cases h; rfl
  have done {u : State} (h : Host.Outcome.next u = (.next t : Out)) (hu : SeqFrame s u) :
      t.cfg = s.cfg ∧ SeqOnBridge s m t.brg := (hu.trans (next h)).onBridge m
  cases m
  case openDevice => exact (setupCall_onBridge (fun _ _ h => by cases h; rfl) h).onBridge _
  case claimInterface | setAltSetting | clearHalt =>
    exact (setupCall_onBridge (fun _ _ => next) h).onBridge _
  case ctl w => exact sendRecord_onBridge (.inl rfl) (fun _ _ => next) h
  case pollReset idle => exact sendRecord_onBridge (.inr ⟨idle, rfl, rfl⟩) (fun _ _ => pollDecide_seqFrame) h
  case writeOut bytes => exact writeOut_onBridge h
  case readIn n => exact readIn_onBridge h
  case pollRead => exact readStatus_onBridge (fun _ _ _ => pollOnce_seqFrame) h
  case shortCheck => exact readStatus_onBridge (fun _ _ _ h => by cases h; rfl) h
  case wait due =>
    refine SeqFrame.onBridge ?_ _
    simp only [microStep] at h
    split_ifs at h <;> cases h <;> rfl
  case reraise e => exact done h (raiseError_seqFrame e s)
  case resetTail => exact done h (resetTail_seqFrame s)
  case pulseEnd => exact done h (endPulse_seqFrame s)
  case block rest => exact done h (nextChunk_seqFrame rest s)
  case tripletComp d => exact done h (decodeTriplet_seqFrame d s)
  case srchBegin mode => exact done h (beginPass_seqFrame mode s)
  case srchPresent mode => exact done h (afterPresence_seqFrame mode s)
  case srchBit mode => exact done h (recordPosition_seqFrame mode s)
  case srchCommit mode => exact done h (finishPass_seqFrame mode s)
  all_goals exact done h rfl

end Sys2Proof.Proofs
end

section
/-! Every move keeps the configuration and the invariant of the bridge; a desynchronised bridge stays so but
for a reset. -/

namespace Sys2Proof.Proofs

open Sys2Proof.Machine Sys2Proof.Laws

/-! ### Moves and the bridge -/

/-- The sequencer's step is the first micro-step of what is left, or none. -/
theorem seqStep_next {fate : Fate} {s t : State} (h : seqStep fate s = .next t) :
    s.seq.phase = [] ∧ t = s ∨
      ∃ m rest, s.seq.phase = m :: rest ∧ microStep m fate (setPhase rest s) = .next t := by
  unfold seqStep at h
  cases hp : s.seq.phase with
  | nil => rw [hp] at h; cases h; exact .inl ⟨rfl, rfl⟩
  | cons m rest => rw [hp] at h; exact .inr ⟨m, rest, rfl, h⟩

/-- Presenting an operation changes the sequencer alone. -/
theorem present_seqFrame {op : HostOp} {s t : State} (h : present op s = .next t) : SeqFrame s t := by
  have accepted {t : State} (h : present.accepted op s = .next t) : SeqFrame s t := by
    unfold present.accepted at h
    split_ifs at h <;> cases h <;> rfl
  unfold present at h
  split_ifs at h
  split at h
  · cases h
  · cases h
  · exact accepted h
  · exact accepted h

theorem inv_outTransfer {bytes : List Byte} {s t : State} (h : outTransfer bytes s = .next t)
    (hi : s.brg.Inv s.cfg) : t.brg.Inv s.cfg := by
  obtain ⟨-, -, ⟨-, rfl⟩ | ⟨free, room, rfl⟩⟩ := outTransfer_eq_next.mp h
  · exact inv_of_strip_eq hi rfl
  · exact inv_setBuffers hi (not_outstanding_iff.mp free).1 hi.oneWaiting hi.waiting (by simpa using room)
      hi.rbuf

theorem inv_seqOnBridge {s : State} {m : Micro} {b : Brg} (h : SeqOnBridge s m b) (hi : s.brg.Inv s.cfg) :
    b.Inv s.cfg := by
  cases h with
  | none => exact hi
  | record _ arrives => exact inv_deliver arrives hi
  | write arrives => exact inv_outTransfer arrives hi
  | status => exact inv_setResults hi rfl
  | read => exact inv_dropRead hi _

theorem legalResult_injected (cmp crc rdp eos : Bool) :
    legalResult (injectedResult cmp crc rdp eos) = true := by
  cases cmp <;> cases crc <;> cases rdp <;> cases eos <;> decide

/-- One move, whatever it is. -/
theorem inv_applyMove {m : Move} {s t : State} (h : applyMove m s = .next t) :
    t.cfg = s.cfg ∧ (s.brg.Inv s.cfg → t.brg.Inv s.cfg) := by
  cases m
  case record w => exact ⟨deliver_cfg h, inv_deliver h⟩
  case dataOut bytes => exact ⟨outTransfer_cfg h, inv_outTransfer h⟩
  case dataIn n =>
    unfold applyMove at h
    obtain ⟨-, -, ⟨⟩⟩ := inTransfer_eq_next.mp h
    exact ⟨rfl, fun hi => inv_dropRead hi n⟩
  case status =>
    unfold applyMove at h
    obtain ⟨-, ⟨⟩⟩ := statusTransfer_eq_next.mp h
    exact ⟨rfl, fun hi => inv_setResults hi rfl⟩
  case host op =>
    have frame := present_seqFrame h
    exact ⟨frame.cfg, fun hi => frame.brg ▸ hi⟩
  case seq fate =>
    obtain ⟨-, rfl⟩ | ⟨m, rest, -, h⟩ := seqStep_next h
    · exact ⟨rfl, id⟩
    · obtain ⟨hc, hb⟩ := microStep_onBridge h
      exact ⟨hc, fun hi => inv_seqOnBridge (s := setPhase rest s) hb hi⟩
  case brg => exact ⟨(engineStep_frame (engineStep_of_brgStep h).2).cfg, inv_brgStep h⟩
  all_goals cases h
  case clock ms => exact ⟨rfl, fun hi => inv_drainPulse hi ms⟩
  case por => exact ⟨rfl, fun _ => inv_powerOn s.cfg s.draws true⟩
  case deviceDetect => exact ⟨rfl, fun hi => inv_addResult hi (by decide)⟩
  case inject cmp crc rdp eos => exact ⟨rfl, fun hi => inv_addResult hi (legalResult_injected ..)⟩
  all_goals exact ⟨rfl, id⟩

/-- A step is one move, of a state that differs in the model's own counters only. -/
theorem step_next {s t : State} (h : step s = .next t) :
    ∃ m agenda draws, applyMove m { s with agenda := agenda, draws := draws } = .next t := by
  unfold step at h
  split at h
  · exact ⟨_, _, _, h⟩
  · exact ⟨_, s.agenda, _, h⟩

/-- Settles O36: every move keeps the invariant, register group by register group. -/
theorem bridgeInvariant : Obligations.BridgeInvariant := by
  intro s t h
  obtain ⟨m, agenda, draws, hm⟩ := step_next h
  obtain ⟨hc, hi⟩ := inv_applyMove hm
  exact ⟨hc, fun _ => hc ▸ hi⟩

/-! ### DESYNC (R62, R380) -/

theorem exec_hazard {i : Instr} {s : State} (sound : s.brg.fault = .none) (out : s.brg.outstanding = true)
    (hi : i.category ≠ .control) : exec i s = .next (setDesync s) := by
  cases hcat : i.category with
  | control => exact absurd hcat hi
  | mode =>
    rw [exec_of_mode hcat]
    exact acceptMode_eq_next.mpr ⟨sound, .inl ⟨out, rfl⟩⟩
  | comm =>
    cases hs : isSearch i with
    | false =>
      rw [exec_of_comm hcat hs]
      exact acceptComm_eq_next.mpr ⟨sound, .inl ⟨out, rfl⟩⟩
    | true =>
      cases i <;> simp only [isSearch, Bool.false_eq_true] at hs
      case commSearchAccess o index =>
        exact (execCommSearchAccess_eq_next (index := index)).mpr ⟨sound, out, rfl⟩

/-- While desynchronised, every record but a device reset is a fault. -/
theorem exec_desync {i : Instr} {s : State} (desync : s.brg.fault = .desync) (hi : i ≠ .ctlResetDevice) :
    exec i s = .fault .desync := by
  cases i
  case ctlResetDevice => exact absurd rfl hi
  all_goals exact ifSound_desync desync _

/-- Only a device reset gets an answer from a desynchronised bridge. -/
theorem deliver_desync {w : CmdWord} {s t : State} (desync : s.brg.fault = .desync)
    (h : deliver w s = .next t) : decode s.cfg w = .ok .ctlResetDevice := by
  obtain ⟨i, hd, he⟩ := deliver_eq_next.mp h
  by_cases hi : i = .ctlResetDevice
  · exact hi ▸ hd
  · rw [exec_desync (s := s.logControl w) desync hi] at he
    cases he

/-- A micro-step leaves the bridge desynchronised, or sends a device reset. -/
theorem seqOnBridge_desync {s : State} {m : Micro} {b : Brg} (desync : s.brg.fault = .desync)
    (h : SeqOnBridge s m b) : b.fault = .desync ∨
      (∃ w, m = .ctl w ∧ decode s.cfg w = .ok .ctlResetDevice) ∨ ∃ idle, m = .pollReset idle := by
  cases h with
  | none => exact .inl desync
  | record sends arrives =>
    obtain rfl | ⟨idle, rfl, -⟩ := sends
    · exact .inr (.inl ⟨_, rfl, deliver_desync desync arrives⟩)
    · exact .inr (.inr ⟨idle, rfl⟩)
  | write arrives => simp [(outTransfer_eq_next.mp arrives).1] at desync
  | status sound => simp [sound] at desync
  | read sound => simp [sound] at desync

/-- What ends `DESYNC`: a power-on, or a device reset sent directly or by the sequencer. -/
theorem applyMove_desync {s t : State} {m : Move} (desync : s.brg.fault = .desync)
    (h : applyMove m s = .next t) :
    t.brg.fault = .desync ∨ m = .por ∨ (∃ w, m = .record w ∧ decode s.cfg w = .ok .ctlResetDevice) ∨
      ∃ (fate : Fate) (rest : List Micro), m = .seq fate ∧
        ((∃ w, s.seq.phase = .ctl w :: rest ∧ decode s.cfg w = .ok .ctlResetDevice) ∨
          ∃ idle, s.seq.phase = .pollReset idle :: rest) := by
  cases m
  case record w => exact .inr (.inr (.inl ⟨w, rfl, deliver_desync desync h⟩))
  case por => exact .inr (.inl rfl)
  case seq fate =>
    obtain ⟨-, rfl⟩ | ⟨m, rest, hp, h⟩ := seqStep_next h
    · exact .inl desync
    · obtain keeps | ⟨w, rfl, hd⟩ | ⟨idle, rfl⟩ :=
        seqOnBridge_desync (s := setPhase rest s) desync (microStep_onBridge h).2
      · exact .inl keeps
      · exact .inr (.inr (.inr ⟨fate, rest, rfl, .inl ⟨w, hp, hd⟩⟩))
      · exact .inr (.inr (.inr ⟨fate, rest, rfl, .inr ⟨idle, hp⟩⟩))
  case host op => exact .inl ((present_seqFrame h).brg ▸ desync)
  case dataOut bytes => cases (ifSound_desync desync _).symm.trans h
  case dataIn n => cases (ifSound_desync desync _).symm.trans h
  case status => cases (ifSound_desync desync _).symm.trans h
  case brg => cases (ifSound_desync desync _).symm.trans h
  all_goals cases h; exact .inl desync

/-- Settles O13: the hazard rule, the faults of a desynchronised bridge, and what ends them. -/
theorem desync : Obligations.Desync := by
  refine ⟨fun s i sound out hi => exec_hazard sound out hi, fun s hd => ⟨fun i hi => exec_desync hd hi, ?_⟩,
    fun s t m hd h => applyMove_desync hd h, rfl⟩
  exact ⟨ifSound_desync hd _, fun bytes => ifSound_desync hd _, fun n => ifSound_desync hd _,
    ifSound_desync hd _⟩

end Sys2Proof.Proofs
end

section
/-! Single steps that carry a record, the values at reset, the Status Record and its flags, and the length of a
strong pull-up. -/

namespace Sys2Proof.Proofs

open Sys2Proof.Machine Sys2Proof.Laws

/-! ### Records reach the bridge (R36, R122) -/

theorem deliver_ok {w : CmdWord} {s : State} {i : Instr} (h : decode s.cfg w = .ok i) :
    deliver w s = exec i (s.logControl w) := by
  simp [deliver, h]

theorem deliver_error {w : CmdWord} {s : State} {e : DecodeError} (h : decode s.cfg w = .error e) :
    deliver w s = .refused .reservedEncoding := by
  simp [deliver, h]

/-- With a move lined up the step is that move. -/
theorem step_cons {s : State} {m : Move} {rest : List Move} (h : s.agenda = m :: rest) :
    step s = applyMove m { s with agenda := rest } := by
  simp [step, h]

theorem decode_of_decodeTableWord {nbits w : Nat} {i : Instr} (h : decodeTableWord nbits w = some i) :
    decode Config.reference (tableWord nbits w) = .ok i := by
  unfold decodeTableWord at h
  split at h
  · cases h; assumption
  · cases h

/-- Settles O4: a step with a record lined up is the delivery of that record. -/
theorem stepRunsRecord : Obligations.StepRunsRecord := by
  refine ⟨fun s w rest i hs hd => ?_, fun s w rest e hs hd => ?_, fun s nbits w i hc hd => ?_⟩
  · rw [step_cons hs]
    exact deliver_ok (s := { s with agenda := rest }) hd
  · rw [step_cons hs]
    exact deliver_error (s := { s with agenda := rest }) hd
  · rw [step_cons (s := s.withFetchWord nbits w) rfl]
    exact deliver_ok (s := s) (hc ▸ decode_of_decodeTableWord hd)

theorem isDeviceReset_iff {c : Config} {w : CmdWord} {i : Instr} (h : decode c w = .ok i) :
    isDeviceReset c w = true ↔ i = .ctlResetDevice := by
  cases i <;> simp [isDeviceReset, h]

theorem seqStep_cons {s : State} {m : Micro} {rest : List Micro} (fate : Fate) (h : s.seq.phase = m :: rest) :
    seqStep fate s = microStep m fate (setPhase rest s) := by
  simp [seqStep, h]

/-- Settles O5: the three fates of a record the sequencer sends. -/
theorem sequencerRunsRecord : Obligations.SequencerRunsRecord := by
  rintro s u v w rest i hp hd rfl rfl
  have hdel : deliver w (setPhase rest s) = exec i ((setPhase rest s).logControl w) :=
    deliver_ok (s := setPhase rest s) hd
  refine ⟨?_, ?_, ?_⟩ <;> rw [seqStep_cons _ hp] <;> simp only [microStep, sendRecord, transport]
  · rw [hdel]
    simp only [setPhase_cfg, isDeviceReset_iff hd]
    rfl
  · rfl
  · rw [hdel]
    rfl

/-! ### Reset (R70) -/

/-- Settles O6: the start state holds the table's values, field by field. -/
theorem resetValues : Obligations.ResetValues := by
  refine ⟨?_, ?_, fun _ => rfl, rfl⟩
  · rintro c q rfl
    simp [State.start, Seq.reset, SearchState.fresh, Config.pollMax]
  · rintro c b rfl
    simp [State.start, Brg.powerOn]

theorem seqInv_reset (c : Config) : (Seq.reset c).Inv c := by
  constructor <;> simp [Seq.reset, Seq.atRest, SearchState.fresh, legalSpeed, Config.pollMax]

theorem inv_startState {c : Config} (h : c.Legal) : (State.start c).Inv :=
  ⟨h, inv_powerOn c 0 true, seqInv_reset c⟩

/-- Settles O35: the invariants of both agents hold at the start of every legal configuration. -/
theorem resetInvariant : Obligations.ResetInvariant :=
  ⟨inv_startState reference_legal, fun _ => inv_startState⟩

/-! ### The Status Record (R65, R66) -/

/-- Settles O30: each byte by the layout, the sixteen in reference order. -/
theorem statusLayout : Obligations.StatusLayout := by
  refine ⟨?_, ?_⟩
  · rintro s l hc rfl
    have hn := List.nodup_reverse.2 hc.offsets
    simp only [StatusLayout.offsets, List.reverse_cons, List.reverse_nil, List.nil_append, List.cons_append,
      List.nodup_cons, List.mem_cons, List.not_mem_nil, not_or, or_false] at hn
    simp [statusByte, bufferCount, hn]
  · intro s hl
    simp [statusRecord, Config.statusFixedLen, List.range_succ, statusByte, hl, Config.referenceLayout,
      bufferCount]

/-! ### The status flags (R56) -/

theorem isSpu_iff {p : Pulse} : p.isSpu = true ↔ ∃ left, p = .spu left := by
  cases p <;> simp [Pulse.isSpu]

theorem isPrg_iff {p : Pulse} : p.isPrg = true ↔ ∃ left, p = .prg left := by
  cases p <;> simp [Pulse.isPrg]

theorem idle_iff {b : Brg} : (!b.outstanding) = true ↔ b.exec = .idle ∧ b.cbuf = [] := by
  rw [Bool.not_eq_true', not_outstanding_iff]

theorem flagIf_getLsbD (b : Bool) (m : Byte) (k : Nat) : (flagIf b m).getLsbD k = (b && m.getLsbD k) := by
  cases b <;> simp [flagIf]

/-- The flag byte in the reference masks, bit by bit; bit 6 is of no flag. -/
theorem statusFlags_bits {s : State} (h : s.cfg.flags = Config.referenceFlags) :
    (statusFlags s).getLsbD 0 = s.brg.pulse.isSpu ∧ (statusFlags s).getLsbD 1 = s.brg.pulse.isPrg ∧
      (statusFlags s).getLsbD 2 = s.vppIn ∧ (statusFlags s).getLsbD 3 = s.pmodIn ∧
      (statusFlags s).getLsbD 4 = s.brg.halt ∧ (statusFlags s).getLsbD 5 = !s.brg.outstanding ∧
      (statusFlags s).getLsbD 6 = false ∧ (statusFlags s).getLsbD 7 = s.brg.epof := by
  simp only [statusFlags, h, Config.referenceFlags, BitVec.getLsbD_or, flagIf_getLsbD]
  refine ⟨?_, ?_, ?_, ?_, ?_, ?_, ?_, ?_⟩ <;> simp

/-- Settles O31: the flags under their masks, and bit by bit in the reference masks. -/
theorem statusFlagBits : Obligations.StatusFlagBits := by
  refine ⟨?_, fun s hf => ?_⟩
  · rintro s f hc rfl
    obtain ⟨spua, prga, v12p, pmod, halt, idle, epof⟩ := testFlag_statusFlags hc
    exact ⟨spua ▸ isSpu_iff, prga ▸ isPrg_iff, v12p, pmod, halt, idle ▸ idle_iff, epof⟩
  · obtain ⟨spua, prga, v12p, pmod, halt, idle, rsv, epof⟩ := statusFlags_bits hf
    exact ⟨spua ▸ isSpu_iff, prga ▸ isPrg_iff, v12p, pmod, halt, idle ▸ idle_iff, rsv, epof⟩

/-! ### The length of a strong pull-up (R52, R64) -/

/-- Has the pull-up of this code ended after that time? -/
theorem over_drain_pullUpTime (c : Config) (code : Byte) (ms : Nat) :
    (Pulse.drain ms (.spu (pullUpTime c code))).over = true ↔
      code ≠ c.spudInfinite ∧ 16 * code.toNat ≤ ms := by
  unfold pullUpTime
  split_ifs with h
  · simp [Pulse.drain, Remaining.drain, Pulse.over, h]
  · simp only [Pulse.drain, Remaining.drain, Pulse.over, Config.spudUnitUs, beq_iff_eq, ne_eq, h,
      not_false_eq_true, true_and]
    omega

/-- A running pulse, engine step by engine step. -/
theorem brgStep_pulsing {s : State} {i : Instr} (sound : s.brg.fault = .none) (busy : s.brg.exec = .busy)
    (cur : s.brg.cur = some i) (stage : s.brg.stage = .pulsing) : brgStep s = .next (pulseStep s) := by
  simp [brgStep, sound, busy, cur, stage]

/-- Settles O23: the pull-up lasts until 16 milliseconds for each unit of its code have passed. -/
theorem pullUpLasts : Obligations.PullUpLasts := by
  intro s i ms hc sound busy cur stage pulse
  have hstep : andThen (applyMove (.clock ms) s) brgStep = .next (pulseStep (passTime ms s)) :=
    brgStep_pulsing (s := passTime ms s) sound busy cur stage
  have ended := over_drain_pullUpTime s.cfg s.brg.spud ms
  rw [← pulse] at ended
  refine ⟨fun running => ⟨?_, ?_⟩, fun hcode hms => ?_⟩
  · have : ¬ (s.brg.pulse.drain ms).over = true := by
      rw [ended]
      rintro ⟨hcode, hms⟩
      rcases running with hcode' | hlt
      · exact hcode hcode'
      · omega
    rw [hstep, pulseStep, passTime_pulse, if_neg this]
    rfl
  · rintro t ⟨⟩
    rw [show s.cfg.flags.spua = (passTime ms s).cfg.flags.spua from rfl,
      (testFlag_statusFlags (s := passTime ms s) hc).1, passTime_pulse, pulse]
    rfl
  · rw [hstep, pulseStep, passTime_pulse, if_pos (ended.mpr ⟨hcode, hms⟩)]
    rfl

end Sys2Proof.Proofs
end

section
/-! The events of the environment (10_state.md R39): power-on, also inside a `STARTPULSE`, device detect and
an injected result byte. -/

namespace Sys2Proof.Proofs

open Sys2Proof.Machine Sys2Proof.Laws

/-! ### A poll that meets a power-on (R223, R332) -/

theorem pollOnce_epof {st : List Byte} {s : State} {idle : Bool} (hi : recordIdle s.cfg st = idle)
    (h : recordEpof s.cfg st = true) :
    pollOnce st s = .next (pushPhase [.pollReset idle]
      { s with seq := { s.seq with n := s.seq.n + 1, porSeen := true } }) := by
  simp [pollOnce, h, hi]

/-- A device reset that the sequencer sends and that arrives. -/
theorem sendReset_ok {s : State} (hc : s.cfg.Legal) (k : State → Out) :
    sendRecord .ok (encode s.cfg .ctlResetDevice) k s =
      k { deviceReset (s.logControl (encode s.cfg .ctlResetDevice)) with
        seq := { s.seq with rtail := [] } } := by
  have hd : decode s.cfg (encode s.cfg .ctlResetDevice) = .ok .ctlResetDevice := decode_encode hc rfl
  simp only [sendRecord, transport, deliver_ok hd, (isDeviceReset_iff hd).mpr rfl, if_true]
  rfl

/-- One read of the poll loop that finds the bridge idle with `EPOF` set. -/
theorem seqStep_pollRead_epof {s : State} {p : List Micro} (hc : s.cfg.Legal) (sound : s.brg.fault = .none)
    (free : s.brg.outstanding = false) (epof : s.brg.epof = true) (hp : s.seq.phase = .pollRead :: p) :
    ∃ t, seqStep .ok s = .next t ∧ t = { s with
      seq := { s.seq with
        phase := .pollReset true :: p, n := s.seq.n + 1, porSeen := true, rtail := t.seq.rtail,
        lastSf := t.seq.lastSf }
      brg := { s.brg with resq := [] }
      trace := t.trace } := by
  have idle : recordIdle (setPhase p s).cfg (statusRecord (setPhase p s)) = true := by
    rw [recordIdle_statusRecord (s := setPhase p s) hc, setPhase_brg, free]; rfl
  have power : recordEpof (setPhase p s).cfg (statusRecord (setPhase p s)) = true := by
    rw [recordEpof_statusRecord (s := setPhase p s) hc, setPhase_brg, epof]
  rw [seqStep_cons .ok hp]
  exact ⟨_, (readStatus_ok (s := setPhase p s) sound pollOnce).trans
    (pollOnce_epof (s := recordTaken (setPhase p s)) idle power), rfl⟩

/-- The reset of the device that a poll makes when it saw an idle bridge with `EPOF` set. -/
theorem seqStep_pollReset_idle {s : State} {p : List Micro} (hc : s.cfg.Legal)
    (hp : s.seq.phase = .pollReset true :: p) :
    seqStep .ok s = .next { deviceReset (s.logControl (encode s.cfg .ctlResetDevice)) with
      seq := { s.seq with phase := p, rtail := [] } } := by
  rw [seqStep_cons .ok hp]
  exact (sendReset_ok (s := setPhase p s) hc (pollDecide true)).trans rfl

/-- A poll of an idle bridge with `EPOF` set resets the device and ends. -/
theorem poll_powerOn {s : State} {p : List Micro} (hc : s.cfg.Legal) (sound : s.brg.fault = .none)
    (free : s.brg.outstanding = false) (epof : s.brg.epof = true) (hp : s.seq.phase = pollIdle ++ p) :
    ∃ t, runMoves (List.replicate 3 seqOk) s = .next t ∧ t = { s with
      seq := { s.seq with phase := p, n := 1, porSeen := true, rtail := [], lastSf := t.seq.lastSf }
      brg := { Brg.powerOn s.cfg s.draws with epof := false }
      draws := s.draws + 5
      trace := t.trace } := by
  have start : seqStep .ok s = .next { s with seq := { s.seq with phase := .pollRead :: p, n := 0 } } := by
    rw [seqStep_cons .ok hp]; rfl
  obtain ⟨u, read, hu⟩ := seqStep_pollRead_epof (p := p)
    (s := { s with seq := { s.seq with phase := .pollRead :: p, n := 0 } }) hc sound free epof rfl
  have reset := seqStep_pollReset_idle (s := u) (p := p) (by rw [hu]; exact hc) (by rw [hu])
  simp only [List.replicate, runMoves, seqOk, applyMove, start, read, reset, andThen_next]
  refine ⟨_, rfl, ?_⟩
  rw [hu]
  rfl

/-- The last micro-step of a `STARTPULSE` before its answer. -/
theorem seqStep_pulseEnd {s : State} {rest : List Micro} (fate : Fate)
    (hp : s.seq.phase = .pulseEnd :: rest) :
    seqStep fate s = .next { s with seq := { s.seq with phase :=
      (if s.seq.porSeen && s.cfg.readings.porEndsPulse then [] else pulseMode s.cfg false) ++ rest } } := by
  rw [seqStep_cons fate hp]
  simp only [microStep, endPulse, setPhase_porSeen, setPhase_cfg]
  by_cases hb : (s.seq.porSeen && s.cfg.readings.porEndsPulse) = true
  · simp only [hb, if_true]; rfl
  · simp only [hb]; rfl

theorem runMoves_append (ms ns : List Move) (s : State) :
    runMoves (ms ++ ns) s = andThen (runMoves ms s) (runMoves ns) := by
  induction ms generalizing s with
  | nil => rfl
  | cons m ms ih => simp only [List.cons_append, runMoves, andThen_assoc, funext ih]

/-- A `STARTPULSE` whose last poll meets a power-on (R332, R233). -/
theorem startPulse_powerOn {s : State} {rest : List Micro} (hc : s.cfg.Legal)
    (hp : s.seq.phase = pollIdle ++ .endRecover :: .pulseEnd :: rest) :
    ∃ t, runMoves (.por :: List.replicate 5 seqOk) s = .next t ∧ t.brg.en = 0x00#8 ∧
      t.brg.speed = s.cfg.speeds.regular ∧ t.brg.epof = false ∧ t.brg.exec = .idle ∧
      t.brg.pulse = .off ∧ t.seq.rtail = [] ∧ t.seq.answer = s.seq.answer ∧ t.wire = s.wire ∧
      t.seq.phase = (if s.cfg.readings.porEndsPulse then [] else pulseMode s.cfg false) ++ rest := by
  obtain ⟨u, poll, hu⟩ := poll_powerOn (s := powerOnBridge s) hc rfl rfl rfl hp
  have moves : Move.por :: List.replicate 5 seqOk = [.por] ++ List.replicate 3 seqOk ++ [seqOk, seqOk] := rfl
  have endTry : seqStep .ok u = .next (setPhase (.pulseEnd :: rest) u) :=
    seqStep_cons (m := .endRecover) .ok (by rw [hu])
  have endPulse := seqStep_pulseEnd (s := setPhase (.pulseEnd :: rest) u) .ok rfl
  rw [moves, runMoves_append, runMoves_append]
  simp only [runMoves, seqOk, applyMove, andThen_next] at poll ⊢
  rw [poll, andThen_next, endTry, andThen_next, endPulse, andThen_next]
  rw [hu]
  exact ⟨_, rfl, rfl, rfl, rfl, rfl, rfl, rfl, rfl, rfl, rfl⟩

/-! ### Injected result bytes (R330) -/

theorem injectedResult_bits (cmp crc rdp eos : Bool) :
    (injectedResult cmp crc rdp eos).getLsbD 4 = cmp ∧ (injectedResult cmp crc rdp eos).getLsbD 5 = crc ∧
      (injectedResult cmp crc rdp eos).getLsbD 6 = rdp ∧ (injectedResult cmp crc rdp eos).getLsbD 7 = eos ∧
      injectedResult cmp crc rdp eos &&& 0x0F#8 = 0#8 := by
  cases cmp <;> cases crc <;> cases rdp <;> cases eos <;> decide

/-- A byte with neither of the two low bits is seen by neither scan of the short check (R226). -/
theorem resultHas_injected (cmp crc rdp eos : Bool) :
    resultHas Config.rrSH (injectedResult cmp crc rdp eos) = false ∧
      resultHas Config.rrNRS (injectedResult cmp crc rdp eos) = false := by
  cases cmp <;> cases crc <;> cases rdp <;> cases eos <;> decide

/-- The registers of a power-on, and what it leaves alone (R39, R70). -/
theorem recordFlags_powerOn {s : State} (hc : s.cfg.Legal) :
    recordEpof s.cfg (statusRecord (powerOnBridge s)) = true ∧
      recordIdle s.cfg (statusRecord (powerOnBridge s)) = true :=
  ⟨recordEpof_statusRecord (s := powerOnBridge s) hc, recordIdle_statusRecord (s := powerOnBridge s) hc⟩

/-- Settles O58: power-on, a `STARTPULSE` that meets one, the sentinel, and an injected byte. -/
theorem environmentEvents : Obligations.EnvironmentEvents := by
  refine ⟨fun s => ?_, fun s rest hc hp => ?_, fun s rest fate hp hs => ?_, fun _ => rfl,
    fun s cmp crc rdp eos => ?_⟩
  · refine ⟨powerOnBridge s, rfl, ?_⟩
    simp only [powerOnBridge_cfg, powerOnBridge_en, powerOnBridge_speed, powerOnBridge_epof,
      powerOnBridge_halt, powerOnBridge_fault, powerOnBridge_exec, powerOnBridge_cur, powerOnBridge_k,
      powerOnBridge_m, powerOnBridge_pulse, powerOnBridge_curcmd, powerOnBridge_cbuf, powerOnBridge_wbuf,
      powerOnBridge_rbuf, powerOnBridge_resq, powerOnBridge_seq, powerOnBridge_wire, powerOnBridge_now,
      powerOnBridge_trace, true_and]
    exact recordFlags_powerOn
  · exact startPulse_powerOn hc hp
  · rw [seqStep_pulseEnd fate hp, hs]
    rfl
  · obtain ⟨h₁, h₂, h₃, h₄, h₅⟩ := injectedResult_bits cmp crc rdp eos
    refine ⟨injectedResult cmp crc rdp eos, rfl, h₁, h₂, h₃, h₄, h₅, fun before after => ?_⟩
    obtain ⟨hsh, hnr⟩ := resultHas_injected cmp crc rdp eos
    simp [tailShort, tailNoResponse, hsh, hnr]

end Sys2Proof.Proofs
end

section
/-! The invariant of the sequencer while an operation is in progress, in a form that an update of a register
which it does not speak of keeps as it stands; and the micro-sequences that the operations are made of. -/

namespace Sys2Proof.Proofs

open Sys2Proof.Machine Sys2Proof.Laws

/-! ### Micro-steps an operation may have ahead -/

/-- What the invariant asks of one micro-step of an operation. -/
def StepOk (c : Config) (op : Option OpName) (m : Micro) : Prop :=
  m.sound c = true ∧ (op ≠ some .cmd → m.ownForm c = true) ∧ (m = .close → op = some .release)

/-- Micro-steps that every operation may have ahead: sound, of the sequencer's own forms, and no teardown. -/
def Own (c : Config) (p : List Micro) : Prop :=
  ∀ m ∈ p, m.sound c = true ∧ m.ownForm c = true ∧ m ≠ .close

@[simp] theorem own_nil (c : Config) : Own c [] := by simp [Own]

@[simp] theorem own_cons (c : Config) (m : Micro) (p : List Micro) :
    Own c (m :: p) ↔ (m.sound c = true ∧ m.ownForm c = true ∧ m ≠ .close) ∧ Own c p := by simp [Own]

@[simp] theorem own_append (c : Config) (p q : List Micro) : Own c (p ++ q) ↔ Own c p ∧ Own c q :=
  List.forall_mem_append

theorem stepOk_of_own {c : Config} {p : List Micro} (h : Own c p) (op : Option OpName) :
    ∀ m ∈ p, StepOk c op m := by
  intro m hm
  obtain ⟨sound, form, notClose⟩ := h m hm
  exact ⟨sound, fun _ => form, fun hc => absurd hc notClose⟩

/-- The list ends with a micro-step that an operation can end with, if it has any. -/
def Ends (p : List Micro) : Prop := ∀ m, p.getLast? = some m → m.final = true

theorem ends_append {p q : List Micro} (hq : q ≠ []) : Ends (p ++ q) ↔ Ends q := by
  simp [Ends, List.getLast?_append_of_ne_nil p hq]

theorem ends_concat {p : List Micro} {m : Micro} (hm : m.final = true) : Ends (p ++ [m]) := by
  simp [Ends, hm]

/-- After a micro-step that is no end, something is left. -/
theorem ne_nil_of_ends {m : Micro} {p : List Micro} (h : Ends (m :: p)) (hm : m.final = false) : p ≠ [] := by
  rintro rfl
  simp [Ends, hm] at h

theorem ends_tail {m : Micro} {p : List Micro} (h : Ends (m :: p)) : Ends p := by
  cases p with
  | nil => simp [Ends]
  | cons => exact (ends_append (p := [m]) (by simp)).mp h

/-! ### The invariant, with an operation in progress -/

/-- The invariant of the sequencer with the current micro-step taken off: what is left may be nothing. -/
structure Popped (c : Config) (q : Seq) : Prop where
  busy : q.busy = true
  op : q.op.isSome = true
  steps : ∀ m ∈ q.phase, StepOk c q.op m
  ends : Ends q.phase
  closed : q.handle = .closed → q.op = some .acquire ∨ q.op = some .release
  speed : legalSpeed c q.speed = true
  pollMax : 1 ≤ q.pollMax
  position : q.i ≤ 63
  lastZero : q.lastZero.all (· ≤ 63) = true
  discrepancy : q.ss.lastDiscrepancy.all (· ≤ 63) = true
  found : q.found.all Rom.valid = true
  answered : q.answer.all Answer.identifiersValid = true

/-- The invariant of the sequencer while an operation is in progress. -/
structure Active (c : Config) (q : Seq) : Prop extends Popped c q where
  left : q.phase ≠ []

variable {c : Config} {q : Seq}

theorem inv_of_active (h : Active c q) : q.Inv c where
  busyOp := h.busy.trans h.op.symm
  busyPhase := by simp [h.busy, h.left]
  ends := h.ends
  sound := List.all_eq_true.mpr fun m hm => (h.steps m hm).1
  forms := fun hop => List.all_eq_true.mpr fun m hm => (h.steps m hm).2.1 hop
  idle := fun hb => by simp [h.busy] at hb
  closed := fun hh _ => h.closed hh
  closing := fun hc => (h.steps .close (by simpa using hc)).2.2 rfl
  speed := h.speed
  pollMax := h.pollMax
  position := h.position
  lastZero := h.lastZero
  discrepancy := h.discrepancy
  found := h.found
  answered := h.answered

/-- While micro-steps are left an operation is in progress. -/
theorem active_of_inv (h : q.Inv c) (left : q.phase ≠ []) : Active c q :=
  have busy : q.busy = true := by simp [h.busyPhase, left]
  { h with
    busy := busy
    op := h.busyOp ▸ busy
    steps := fun m hm => ⟨List.all_eq_true.mp h.sound m hm, fun hop => List.all_eq_true.mp (h.forms hop) m hm,
      fun hc => h.closing (by simpa using hc ▸ hm)⟩
    closed := fun hh => h.closed hh busy
    left := left }

/-- The first micro-step is taken off what is left. -/
theorem popped_of_active {m : Micro} {rest : List Micro} (h : Active c q) (hp : q.phase = m :: rest) :
    Popped c { q with phase := rest } :=
  { h with
    steps := fun n hn => h.steps n (hp ▸ List.mem_cons_of_mem m hn)
    ends := ends_tail (hp ▸ h.ends) }

/-- Micro-steps of the sequencer's own go before what is left. -/
theorem active_push (h : Active c q) {p : List Micro} (hp : Own c p) :
    Active c { q with phase := p ++ q.phase } :=
  { h with
    steps := fun m hm => (List.mem_append.mp hm).elim (stepOk_of_own hp q.op m) (h.steps m)
    ends := (ends_append h.left).mpr h.ends
    left := by simp [h.left] }

/-- Micro-steps that can end the operation go before what is left, if anything is. -/
theorem active_pushEnd (h : Popped c q) {p : List Micro} {m : Micro} (hp : Own c (p ++ [m]))
    (hm : m.final = true) : Active c { q with phase := p ++ [m] ++ q.phase } :=
  { h with
    steps := fun n hn => (List.mem_append.mp hn).elim (stepOk_of_own hp q.op n) (h.steps n)
    ends := by
      by_cases hq : q.phase = []
      · rw [hq, List.append_nil]
        exact ends_concat hm
      · exact (ends_append hq).mpr h.ends
    left := by simp }

/-- An operation that answers leaves the sequencer idle. -/
theorem inv_endOperation {s : State} (h : Popped c s.seq) {a : Answer} (ha : a.identifiersValid = true) :
    (endOperation a s).seq.Inv c :=
  { h with
    busyOp := rfl
    busyPhase := rfl
    ends := by simp
    sound := rfl
    forms := fun _ => rfl
    idle := fun _ => rfl
    closed := fun _ hb => by cases hb
    closing := fun hc => by cases hc
    position := by simp
    lastZero := rfl
    found := rfl
    answered := by simp [ha] }

/-! ### Micro-sequences of the sequencer's own -/

theorem own_recovering {p : List Micro} (h : Own c p) : Own c (recovering p) := by
  simp [recovering, h, Micro.sound, Micro.ownForm]

theorem own_pollIdle : Own c pollIdle := by simp [pollIdle, Micro.sound, Micro.ownForm]

theorem own_commRaw {i : Instr} (h : Own c [send c i]) : Own c (commRaw c i) :=
  (own_append c [send c i] pollIdle).mpr ⟨h, own_pollIdle⟩

/-- A comm operation around a record of the sequencer's own (R225). -/
theorem own_commOp {i : Instr} {out : List Byte} (n : Nat) (h : Own c [send c i])
    (ho : out.length ≤ c.chunkMax) : Own c (commOp c i out n) := by
  have write : Own c (if out.isEmpty then [] else [.writeOut out]) := by
    split_ifs with he <;> simp_all [Micro.sound, Micro.ownForm]
  have read : Own c (if n = 0 then [] else [.readIn n]) := by
    split_ifs <;> simp [Micro.sound, Micro.ownForm]
  refine own_recovering ?_
  rw [own_append, own_append]
  exact ⟨⟨write, own_commRaw h⟩, read⟩

section Sequences

variable (hc : c.Legal)
include hc

/-- A record that the sequencer builds itself is sound when it is not reserved, and its form is read off the
instruction. -/
theorem own_send {i : Instr} (hw : i.wellFormed c = true)
    (hf : ∀ w, decode c w = .ok i → sequencerForm c w = true) : Own c [send c i] := by
  have hd := decode_encode hc hw
  simp [send, Micro.sound, Micro.ownForm, hf _ hd, hd, Except.isOk, Except.toBool]

theorem own_send_resetDevice : Own c [send c .ctlResetDevice] :=
  own_send hc rfl fun w h => by simp [sequencerForm, h]

theorem own_send_pulseEn (spue : Bool) : Own c [send c (.modePulseEn spue true)] :=
  own_send hc rfl fun w h => by simp [sequencerForm, h]

theorem own_send_busSpeed {v : Byte} (hv : legalSpeed c v = true) : Own c [send c (.modeBusSpeed v)] :=
  own_send hc hv fun w h => by simp [sequencerForm, h]

theorem own_send_setDuration (type : PulseKind) (code : Byte) :
    Own c [send c (.commSetDuration immediate type code)] :=
  own_send hc rfl fun w h => by simp [sequencerForm, h]

theorem own_send_pulse : Own c [send c (.commPulse immediate .spu)] :=
  own_send hc rfl fun w h => by simp [sequencerForm, h]

theorem own_initSequence : Own c (initSequence c) := by
  simp only [initSequence, own_append]
  exact ⟨⟨⟨own_send_resetDevice hc, own_commRaw (own_send_setDuration hc .spu _)⟩,
    own_commRaw (own_send_setDuration hc .prg _)⟩,
    (own_append c [_] [_]).mpr ⟨own_send_pulseEn hc false, by simp [Micro.sound, Micro.ownForm]⟩⟩

theorem own_touchBit (b : Bool) : Own c (touchBit c b) :=
  own_commOp 1 (own_send hc rfl fun w h => by simp [sequencerForm, h]) (Nat.zero_le _)

theorem own_byteIo (x : Byte) : Own c (byteIo c x) :=
  own_commOp 1 (own_send hc rfl fun w h => by simp [sequencerForm, h]) (Nat.zero_le _)

theorem own_busReset {speed : Byte} (hv : legalSpeed c speed = true) : Own c (busReset c speed) := by
  have reset : Own c [send c (.commOnewireReset immediate true speed)] :=
    own_send hc (by simpa [Instr.wellFormed, immediate, CommOpts.noEpilogue] using hv) fun w h => by
      simp [sequencerForm, h]
  simp only [busReset, own_append]
  exact ⟨⟨own_commOp 0 reset (Nat.zero_le _), own_recovering (by simp [Micro.sound, Micro.ownForm])⟩,
    by simp [Micro.sound, Micro.ownForm]⟩

/-- A chunk of a block, of 1 to `CHUNK_MAX` bytes (R270). -/
theorem own_chunkIo {bytes : List Byte} (hne : bytes ≠ []) (hl : bytes.length ≤ c.chunkMax) :
    Own c (chunkIo c bytes) := by
  have pos : 1 ≤ bytes.length := List.length_pos_iff.mpr hne
  have fits : bytes.length < 2 ^ 16 := hl.trans_lt hc.chunk.2.1
  refine own_commOp _ (own_send hc ?_ fun w h => by simp [sequencerForm, h]) hl
  simp only [Instr.wellFormed, BitVec.toNat_ofNat, Nat.mod_eq_of_lt fits, Bool.and_eq_true, decide_eq_true_eq]
  exact ⟨pos, hl⟩

theorem own_pulseMode (spue : Bool) : Own c (pulseMode c spue) := by
  unfold pulseMode
  split_ifs
  · exact own_recovering (own_send_pulseEn hc spue)
  · exact own_send_pulseEn hc spue

theorem own_startPulse (ms : Nat) : Own c (startPulse c ms) := by
  have pulse : Own c (send c (.commPulse immediate .spu) :: .delay ms :: pollIdle) := by
    refine (own_append c [_] _).mpr ⟨own_send_pulse hc, ?_⟩
    simp [pollIdle, Micro.sound, Micro.ownForm]
  simp only [startPulse, own_append]
  exact ⟨⟨⟨own_pulseMode hc true, own_commOp 0 (own_send_setDuration hc _ _) (Nat.zero_le _)⟩,
    own_recovering pulse⟩, by simp [Micro.sound, Micro.ownForm]⟩

theorem own_optionalPulse (pulse : Option Nat) : Own c (optionalPulse c pulse) := by
  cases pulse with
  | none => exact own_nil c
  | some ms => exact own_startPulse hc ms

theorem own_tripletProbes (d : Bool) : Own c (tripletProbes c d) := by
  simp [tripletProbes, own_touchBit hc, Micro.sound, Micro.ownForm]

/-! ### The micro-sequence of an operation (R130) -/

omit hc in
theorem decode_requestedWord {r : CmdRequest} (h : (encodeRequest c r).isSome = true) :
    (decode c (requestedWord c r)).isOk = true := by
  cases hn : r.nameable <;> cases hd : decode c (r.word c) <;>
    simp_all [requestedWord, encodeRequest, Except.isOk, Except.toBool]

omit hc in
/-- `CMD` sends what its request encodes to, which decodes (R244). -/
theorem stepOk_cmd {r : CmdRequest} {out : List Nat} {nIn : Nat}
    (ok : operandsOk c (.cmd r out nIn) = true) (speed : Byte) :
    ∀ m ∈ program c (.cmd r out nIn) speed, StepOk c (some .cmd) m := by
  simp only [operandsOk, Bool.and_eq_true, decide_eq_true_eq] at ok
  obtain ⟨⟨encodes, fits⟩, -⟩ := ok
  have sends := decode_requestedWord encodes
  have all : ∀ m ∈ program c (.cmd r out nIn) speed, m.sound c = true ∧ m ≠ .close := by
    simp only [program, commOpWord, recovering, pollIdle]
    split_ifs <;> simp_all [Micro.sound]
  exact fun m hm => ⟨(all m hm).1, fun h => absurd rfl h, fun h => absurd h (all m hm).2⟩

/-- The setup calls of `ACQUIRE` (R240). -/
theorem own_acquire (pollMax : Option PollBound) (ctl bulk : Option Nat) (speed : Byte) :
    Own c (program c (.acquire pollMax ctl bulk) speed) := by
  have bound : ∀ n, pollMax = some n → 1 ≤ n.val := fun n _ => n.2
  simp only [program, own_append]
  refine ⟨⟨?_, own_initSequence hc⟩, by simp [Micro.sound, Micro.ownForm]⟩
  cases pollMax <;> simp_all [Micro.sound, Micro.ownForm, configured, Config.pollMax]

/-- An operation with operands in range has only sound micro-steps ahead, and none but `CMD` a record of
another form. -/
theorem stepOk_program {op : HostOp} (ok : operandsOk c op = true) {speed : Byte}
    (hv : legalSpeed c speed = true) : ∀ m ∈ program c op speed, StepOk c (some op.name) m := by
  have answered {p : List Micro} {kind : AnswerKind} (hp : Own c p) : Own c (p ++ [.answer kind]) := by
    simp [hp, Micro.sound, Micro.ownForm]
  cases op
  case cmd r out nIn => exact stepOk_cmd ok speed
  case release => simp [program, StepOk, Micro.sound, Micro.ownForm, HostOp.name]
  all_goals refine stepOk_of_own ?_ _
  case acquire pollMax ctl bulk => exact own_acquire hc pollMax ctl bulk speed
  case recover => exact answered (own_initSequence hc)
  case startpulse ms => exact answered (own_startPulse hc ms)
  case setspeed v =>
    have hs : legalSpeed c (byteOf v) = true := by
      simp only [operandsOk, Bool.and_eq_true] at ok
      exact ok.2
    refine (own_append c [_] _).mpr ⟨own_send_busSpeed hc hs, ?_⟩
    simp [Micro.sound, Micro.ownForm, hs]
  case reset => exact answered (own_busReset hc hv)
  case touchbit | wrbit | rdbit => exact answered (own_touchBit hc _)
  case rdbyte => exact answered (own_byteIo hc _)
  case wrbyte x pulse =>
    refine answered ?_
    simp [own_byteIo hc, own_optionalPulse hc, Micro.sound, Micro.ownForm]
  case wrblock bytes pulse =>
    refine answered ?_
    simp [own_optionalPulse hc, Micro.sound, Micro.ownForm]
  case triplet d => exact answered (own_tripletProbes hc _)
  all_goals simp [program, Micro.sound, Micro.ownForm]

omit hc in
/-- An operation ends with its answer, or with a search pass, which answers. -/
theorem program_ends (op : HostOp) (speed : Byte) :
    program c op speed ≠ [] ∧ Ends (program c op speed) := by
  cases op
  case release | shortchk | setspeed | rdblock | srchNext | search | srchReset =>
    simp [program, Ends, Micro.final]
  all_goals exact ⟨by simp [program], ends_concat rfl⟩

end Sequences

end Sys2Proof.Proofs
end

section
/-! Every micro-step keeps the invariant of the sequencer: raised errors first, then the micro-steps one by
one. -/

namespace Sys2Proof.Proofs

open Sys2Proof.Machine Sys2Proof.Laws

/-! ### Raised errors (R334 to R336) -/

/-- The handler of a raised error is what stands after the frame of an entered `try`. -/
theorem handlerOf_recover {skip : Nat} {p rest : List Micro} (h : handlerOf skip p = .recover rest) :
    ∃ pre, p = pre ++ .endRecover :: rest := by
  fun_induction handlerOf skip p with
  | case1 => cases h
  | case3 => cases h; exact ⟨[], rfl⟩
  | case5 => cases h
  | case2 | case4 | case6 =>
    rename_i ih
    obtain ⟨pre, rfl⟩ := ih h
    exact ⟨_ :: pre, rfl⟩

theorem handlerOf_drop {skip : Nat} {p rest : List Micro} (h : handlerOf skip p = .drop rest) :
    ∃ pre, p = pre ++ .endDrop :: rest := by
  fun_induction handlerOf skip p with
  | case1 => cases h
  | case3 => cases h
  | case5 => cases h; exact ⟨[], rfl⟩
  | case2 | case4 | case6 =>
    rename_i ih
    obtain ⟨pre, rfl⟩ := ih h
    exact ⟨_ :: pre, rfl⟩

variable {c : Config} {q : Seq}

/-- What stands after the frame of a `try` is an operation's rest, as what stood before was. -/
theorem active_suffix (h : Active c q) {pre rest : List Micro} {m : Micro} (hm : m.final = false)
    (hp : q.phase = pre ++ m :: rest) : Active c { q with phase := rest } :=
  have ends : Ends (m :: rest) := (ends_append (by simp)).mp (hp ▸ h.ends)
  { h with
    steps := fun n hn => h.steps n (by simp [hp, hn])
    ends := ends_tail ends
    left := ne_nil_of_ends ends hm }

/-- ENTRY TO RECOVERY: one initialization and the kept error go before what is left (R334). -/
theorem active_enterRecovery {s : State} (hc : s.cfg.Legal) {rest : List Micro}
    (h : Active s.cfg { s.seq with phase := rest }) (e : ErrorKind) :
    Active s.cfg (enterRecovery e rest s).seq := by
  have own : Own s.cfg (initSequence s.cfg ++ [.endDrop, .reraise e]) := by
    simp [own_initSequence hc, Micro.sound, Micro.ownForm]
  have := active_push h own
  rwa [List.append_assoc] at this

/-- A raised error is taken by a recovery attempt, dropped, or answered. -/
theorem inv_raiseError {s : State} (hc : s.cfg.Legal) (h : Active s.cfg s.seq) (e : ErrorKind) :
    (raiseError e s).seq.Inv s.cfg := by
  obtain ⟨rest, hh, hr⟩ | ⟨rest, hh, hr⟩ | ⟨-, hr⟩ := raiseError_cases e s <;> rw [hr]
  · obtain ⟨pre, hp⟩ := handlerOf_recover hh
    exact inv_of_active (active_enterRecovery hc (active_suffix h rfl hp) e)
  · obtain ⟨pre, hp⟩ := handlerOf_drop hh
    exact inv_of_active (active_suffix h rfl hp)
  · obtain ⟨o, ho⟩ := Option.isSome_iff_exists.mp h.op
    simp only [answerError, ho]
    exact inv_endOperation h.toPopped rfl

/-! ### Transport calls -/

theorem deliver_seq {w : CmdWord} {s t : State} (h : deliver w s = .next t) : t.seq = s.seq := by
  obtain ⟨i, -, he⟩ := deliver_eq_next.mp h
  have := exec_seq he
  exact this

theorem outTransfer_seq {bytes : List Byte} {s t : State} (h : outTransfer bytes s = .next t) :
    t.seq = s.seq := by
  obtain ⟨-, -, ⟨-, rfl⟩ | ⟨-, -, rfl⟩⟩ := outTransfer_eq_next.mp h <;> rfl

section Calls

variable {s t : State} {fate : Fate} (hc : s.cfg.Legal) (h : Active s.cfg s.seq)
include hc h

theorem inv_raiseError_of_eq {u : State} (hcfg : u.cfg = s.cfg) (hseq : u.seq = s.seq) (e : ErrorKind) :
    (raiseError e u).seq.Inv s.cfg := by
  rw [← hcfg] at hc h ⊢
  rw [← hseq] at h
  exact inv_raiseError hc h e

/-- A call whose effect leaves the sequencer alone, and what the sequencer does when it went well. -/
theorem inv_transport {effect k : State → Out}
    (heff : ∀ u, effect s = .next u → u.cfg = s.cfg ∧ u.seq = s.seq)
    (hk : ∀ u, u.cfg = s.cfg → u.seq = s.seq → k u = .next t → t.seq.Inv s.cfg)
    (step : transport fate effect k s = .next t) : t.seq.Inv s.cfg := by
  obtain ⟨-, rfl⟩ | ⟨-, u, he, hu⟩ | ⟨-, u, he, rfl⟩ := transport_eq_next.mp step
  · exact inv_raiseError hc h _
  · obtain ⟨hcfg, hseq⟩ := heff u he
    exact hk u hcfg hseq hu
  · obtain ⟨hcfg, hseq⟩ := heff u he
    exact inv_raiseError_of_eq hc h hcfg hseq _

theorem inv_setupCall {ev : TraceEvent} {k : State → Out}
    (hk : ∀ u, u.seq = s.seq → k u = .next t → t.seq.Inv s.cfg)
    (step : setupCall fate ev k s = .next t) : t.seq.Inv s.cfg :=
  inv_transport hc h (fun u hu => by cases hu; exact ⟨rfl, rfl⟩) (fun u _ => hk u) step

theorem inv_sendRecord {w : CmdWord} {k : State → Out}
    (hk : ∀ u, u.cfg = s.cfg → Active s.cfg u.seq → k u = .next t → t.seq.Inv s.cfg)
    (step : sendRecord fate w k s = .next t) : t.seq.Inv s.cfg := by
  refine inv_transport hc h (fun u hu => ⟨deliver_cfg hu, deliver_seq hu⟩) (fun u hcfg hseq hu => ?_) step
  have hu' : Active s.cfg u.seq := hseq ▸ h
  split_ifs at hu
  · exact hk { u with seq := { u.seq with rtail := [] } } hcfg { hu' with } hu
  · exact hk u hcfg hu' hu

theorem inv_readStatus {k : List Byte → State → Out}
    (hk : ∀ u, u.cfg = s.cfg → Active s.cfg u.seq → k (statusRecord s) u = .next t → t.seq.Inv s.cfg)
    (step : readStatus fate k s = .next t) : t.seq.Inv s.cfg := by
  obtain ⟨-, rfl⟩ | ⟨-, ⟨-, -, rfl⟩ | ⟨-, step⟩⟩ := readStatus_next step
  · exact inv_raiseError hc h _
  · exact inv_raiseError_of_eq (u := drained s) hc h rfl rfl _
  · exact hk (recordTaken s) rfl { h with } step

theorem inv_readIn {n : Nat} (step : readIn fate n s = .next t) : t.seq.Inv s.cfg := by
  obtain ⟨-, rfl⟩ | ⟨-, -, ⟨-, rfl⟩ | ⟨-, -, rfl⟩⟩ := readIn_next step
  · exact inv_raiseError hc h _
  · exact inv_raiseError_of_eq (u := bytesTaken n s) hc h rfl rfl _
  · exact inv_of_active { h with }

/-! ### The poll loop (R223) -/

theorem inv_pollDecide {idle : Bool} (step : pollDecide idle s = .next t) : t.seq.Inv s.cfg := by
  unfold pollDecide at step
  split_ifs at step <;> cases step
  · exact inv_of_active h
  · exact inv_raiseError hc h _
  · exact inv_of_active (active_push h (by simp [Micro.sound, Micro.ownForm]))

theorem inv_pollOnce {st : List Byte} (step : pollOnce st s = .next t) : t.seq.Inv s.cfg := by
  unfold pollOnce at step
  dsimp only at step
  split_ifs at step
  · cases step
    refine inv_of_active (active_push (q := { s.seq with n := s.seq.n + 1, porSeen := true })
      (p := [.pollReset (recordIdle s.cfg st)]) { h with } ?_)
    simp [Micro.sound, Micro.ownForm]
  · exact inv_pollDecide (s := { s with seq := { s.seq with n := s.seq.n + 1 } }) hc { h with } step

end Calls

/-! ### The search (R295 to R302) -/

section Search

variable {s : State} (h : Popped s.cfg s.seq)
include h

theorem inv_endPass (reason : EndReason) : (endPass reason s).seq.Inv s.cfg := by
  unfold endPass
  split_ifs
  · exact inv_endOperation h h.found
  · exact inv_endOperation h rfl

/-- A pass that yields a valid identifier answers it, or keeps it for the answer. -/
theorem inv_yieldRom {mode : SearchMode} (valid : s.seq.workRom.valid = true) :
    (yieldRom mode s).seq.Inv s.cfg := by
  unfold yieldRom
  split_ifs
  · refine inv_of_active (active_pushEnd (q := { s.seq with found := s.seq.found ++ [s.seq.workRom] })
      (p := []) (m := .srchBegin mode) { h with found := ?_ } (by simp [Micro.sound, Micro.ownForm]) rfl)
    simp [h.found, valid]
  · exact inv_endOperation h valid

theorem inv_finishPass (mode : SearchMode) : (finishPass mode s).seq.Inv s.cfg := by
  unfold finishPass
  split_ifs with valid
  · exact inv_yieldRom (s := commitRom s) { h with discrepancy := h.lastZero } valid
  · exact inv_endPass h _

theorem inv_firstPosition (mode : SearchMode) : (firstPosition mode s).seq.Inv s.cfg :=
  inv_of_active (active_pushEnd
    (q := { s.seq with lastZero := none, workRom := s.seq.ss.currentRom, i := 0, bytes := [] })
    (p := []) (m := .srchPropose mode) { h with position := Nat.zero_le _, lastZero := rfl }
    (by simp [Micro.sound, Micro.ownForm]) rfl)

/-- The next position, or the end of the pass; the zero recorded is a position. -/
theorem inv_recordPosition (mode : SearchMode) : (recordPosition mode s).seq.Inv s.cfg := by
  unfold recordPosition
  split
  · exact inv_endPass h _
  next d _ =>
    have lastZero : (if !s.seq.idBit && !s.seq.compBit && !d then some s.seq.i else s.seq.lastZero).all
        (· ≤ 63) = true := by
      split_ifs
      · simpa using h.position
      · exact h.lastZero
    dsimp only
    generalize (if !s.seq.idBit && !s.seq.compBit && !d then some s.seq.i else s.seq.lastZero) = z
      at lastZero ⊢
    split_ifs with last
    · exact inv_of_active (active_pushEnd
        (q := { s.seq with lastZero := z, workRom := setBit s.seq.workRom s.seq.i d })
        (p := []) (m := .srchCommit mode) { h with lastZero := lastZero }
        (by simp [Micro.sound, Micro.ownForm]) rfl)
    · have next : s.seq.i + 1 ≤ 63 := Nat.lt_of_le_of_ne h.position last
      exact inv_of_active (active_pushEnd
        (q := { s.seq with lastZero := z, workRom := setBit s.seq.workRom s.seq.i d, i := s.seq.i + 1 })
        (p := []) (m := .srchPropose mode) { h with lastZero := lastZero, position := next }
        (by simp [Micro.sound, Micro.ownForm]) rfl)

variable (hc : s.cfg.Legal)
include hc

theorem inv_beginPass (mode : SearchMode) : (beginPass mode s).seq.Inv s.cfg := by
  unfold beginPass
  split_ifs
  · exact inv_endPass h _
  · exact inv_of_active (active_pushEnd h (m := .srchPresent mode)
      (by simp [own_busReset hc h.speed, Micro.sound, Micro.ownForm]) rfl)

theorem inv_afterPresence (mode : SearchMode) : (afterPresence mode s).seq.Inv s.cfg := by
  unfold afterPresence
  split_ifs
  · exact inv_of_active (active_pushEnd h (m := .srchFirst mode)
      (by simp [own_byteIo hc, Micro.sound, Micro.ownForm]) rfl)
  · exact inv_endPass h _

theorem inv_proposePosition (mode : SearchMode) : (proposePosition mode s).seq.Inv s.cfg :=
  inv_of_active (active_pushEnd h (m := .srchBit mode)
    (by simp [own_tripletProbes hc, Micro.sound, Micro.ownForm]) rfl)

end Search

/-! ### Micro-steps that go on within an operation -/

section Within

variable {s : State} (hc : s.cfg.Legal) (h : Active s.cfg s.seq)
include hc h

/-- After the second probe the direction is written, unless the triplet aborts (R275). -/
theorem inv_decodeTriplet (d : Bool) : (decodeTriplet d s).seq.Inv s.cfg := by
  unfold decodeTriplet
  dsimp only
  split
  · exact inv_of_active { h with }
  · refine inv_of_active (active_push (q := { s.seq with
      compBit := (firstByte s).getLsbD 0,
      taken := directionTaken s.seq.idBit ((firstByte s).getLsbD 0) d, bytes := [] }) { h with } ?_)
    simp [own_touchBit hc, Micro.sound, Micro.ownForm]

theorem inv_nextChunk (rest : List Byte) : (nextChunk rest s).seq.Inv s.cfg := by
  unfold nextChunk
  split_ifs with he
  · exact inv_of_active h
  · have pos := hc.chunk.1
    have own : Own s.cfg (chunkIo s.cfg (rest.take s.cfg.chunkMax)) :=
      own_chunkIo hc (by simp_all; omega) (List.length_take_le _ _)
    exact inv_of_active (active_push h (by simp [own, Micro.sound, Micro.ownForm]))

theorem inv_resetTail : (resetTail s).seq.Inv s.cfg := by
  unfold resetTail
  split_ifs
  · exact inv_of_active (active_enterRecovery hc h _)
  · exact inv_of_active h
  · exact inv_of_active (active_push h (by simp [Micro.sound, Micro.ownForm]))

theorem inv_endPulse : (endPulse s).seq.Inv s.cfg := by
  unfold endPulse
  split_ifs
  · exact inv_of_active h
  · exact inv_of_active (active_push h (own_pulseMode hc false))

end Within

/-- No result of an operation but those of the search carries identifiers. -/
theorem identifiersValid_resultOf (kind : AnswerKind) (s : State) :
    (Answer.ok (resultOf kind s)).identifiersValid = true := by
  cases kind
  case triplet => cases ht : s.seq.taken <;> simp [resultOf, ht, Answer.identifiersValid]
  all_goals rfl

/-! ### Every micro-step -/

/-- A micro-step, taken off the front of what is left, keeps the invariant of the sequencer. -/
theorem inv_microStep {m : Micro} {fate : Fate} {s t : State} (hc : s.cfg.Legal)
    (hm : StepOk s.cfg s.seq.op m) (h : Popped s.cfg s.seq) (left : m.final = false → s.seq.phase ≠ [])
    (step : microStep m fate s = .next t) : t.seq.Inv s.cfg := by
  have active (hf : m.final = false) : Active s.cfg s.seq := { h with left := left hf }
  cases m
  case openDevice =>
    refine inv_setupCall hc (active rfl) (fun u hu hk => ?_) step
    cases hk
    rw [hu]
    exact inv_of_active { active rfl with closed := fun hh => by cases hh }
  case claimInterface | setAltSetting | clearHalt =>
    refine inv_setupCall hc (active rfl) (fun u hu hk => ?_) step
    cases hk
    exact hu ▸ inv_of_active (active rfl)
  case ctl w =>
    refine inv_sendRecord hc (active rfl) (fun u _ hu hk => ?_) step
    cases hk
    exact inv_of_active hu
  case pollReset idle =>
    refine inv_sendRecord hc (active rfl) (fun u hcfg hu hk => ?_) step
    exact hcfg ▸ inv_pollDecide (hcfg ▸ hc) (hcfg ▸ hu) hk
  case writeOut bytes =>
    exact inv_transport hc (active rfl) (fun u hu => ⟨outTransfer_cfg hu, outTransfer_seq hu⟩)
      (fun u _ hu hk => by cases hk; exact hu ▸ inv_of_active (active rfl)) step
  case readIn n => exact inv_readIn hc (active rfl) step
  case pollRead =>
    refine inv_readStatus hc (active rfl) (fun u hcfg hu hk => ?_) step
    exact hcfg ▸ inv_pollOnce (hcfg ▸ hc) (hcfg ▸ hu) hk
  case shortCheck =>
    refine inv_readStatus hc (active rfl) (fun u hcfg hu hk => ?_) step
    cases hk
    exact inv_of_active { hu with }
  case wait due =>
    simp only [microStep] at step
    split_ifs at step <;> cases step
    · exact inv_of_active (active rfl)
    · exact inv_of_active (active_push (active rfl) (by simp [Micro.sound, Micro.ownForm]))
  all_goals cases step
  case delay ms => exact inv_of_active (active_push (active rfl) (by simp [Micro.sound, Micro.ownForm]))
  case configure pollMax ctl bulk =>
    have bound : 1 ≤ pollMax := by simpa [Micro.sound] using hm.1
    exact inv_of_active { active rfl with pollMax := bound }
  case close => exact inv_of_active { active rfl with closed := fun _ => .inr (hm.2.2 rfl) }
  case reraise e => exact inv_raiseError hc (active rfl) e
  case setSpeed v => exact inv_of_active { active rfl with speed := hm.1 }
  case resetTail => exact inv_resetTail hc (active rfl)
  case pulseEnd => exact inv_endPulse hc (active rfl)
  case block rest => exact inv_nextChunk hc (active rfl) rest
  case tripletComp d => exact inv_decodeTriplet hc (active rfl) d
  case srchReset => exact inv_of_active { active rfl with discrepancy := rfl }
  case srchBegin mode => exact inv_beginPass h hc mode
  case srchPresent mode => exact inv_afterPresence h hc mode
  case srchFirst mode => exact inv_firstPosition h mode
  case srchPropose mode => exact inv_proposePosition h hc mode
  case srchBit mode => exact inv_recordPosition h mode
  case srchCommit mode => exact inv_finishPass h mode
  case answer kind => exact inv_endOperation h (identifiersValid_resultOf kind s)
  all_goals exact inv_of_active { active rfl with }

end Sys2Proof.Proofs
end

section
/-! Every move keeps the invariant of the sequencer. -/

namespace Sys2Proof.Proofs

open Sys2Proof.Machine Sys2Proof.Laws

/-! ### The operation port (R34, R220) -/

/-- A new answer is all that changes in an idle sequencer that refuses an operand. -/
theorem inv_setAnswer {c : Config} {q : Seq} (h : q.Inv c) {a : Answer} (ha : a.identifiersValid = true) :
    Seq.Inv c { q with answer := some a } :=
  { h with
    idle := fun hb => congrArg (fun r : Seq => { r with answer := some a }) (h.idle hb)
    answered := by simp [ha] }

/-- An operation that starts has its micro-sequence ahead; on a closed handle it is `ACQUIRE`. -/
theorem active_beginOperation {s : State} {op : HostOp} (hc : s.cfg.Legal) (h : s.seq.Inv s.cfg)
    (ok : operandsOk s.cfg op = true) (acquire : s.seq.handle = .closed → op.name = .acquire) :
    Active s.cfg (beginOperation op s).seq :=
  have ⟨left, ends⟩ := program_ends (c := s.cfg) op s.seq.speed
  { h with
    busy := rfl
    op := rfl
    steps := stepOk_program hc ok h.speed
    ends := ends
    closed := fun hh => .inl (congrArg some (acquire hh))
    found := rfl
    answered := rfl
    left := left }

theorem inv_presentAccepted {s t : State} {op : HostOp} (hc : s.cfg.Legal) (h : s.seq.Inv s.cfg)
    (acquire : s.seq.handle = .closed → op.name = .acquire) (step : present.accepted op s = .next t) :
    t.seq.Inv s.cfg := by
  unfold present.accepted at step
  split_ifs at step with ok <;> cases step
  · exact inv_of_active (active_beginOperation hc h ok acquire)
  · exact inv_setAnswer h rfl

theorem inv_present {s t : State} {op : HostOp} (hc : s.cfg.Legal) (h : s.seq.Inv s.cfg)
    (step : present op s = .next t) : t.seq.Inv s.cfg := by
  unfold present at step
  split_ifs at step
  split at step
  · cases step
  · cases step
  next acquire => exact inv_presentAccepted hc h (fun _ => by simpa [HostOp.isAcquire] using acquire) step
  next opened _ => exact inv_presentAccepted hc h (fun closed => by simp [opened] at closed) step

/-! ### Moves -/

theorem inv_seqStep {fate : Fate} {s t : State} (hc : s.cfg.Legal) (h : s.seq.Inv s.cfg)
    (step : seqStep fate s = .next t) : t.seq.Inv s.cfg := by
  obtain ⟨-, rfl⟩ | ⟨m, rest, hp, step⟩ := seqStep_next step
  · exact h
  · have active := active_of_inv h (by simp [hp])
    exact inv_microStep (s := setPhase rest s) hc (active.steps m (by simp [hp])) (popped_of_active active hp)
      (ne_nil_of_ends (hp ▸ active.ends)) step

/-- One move, whatever it is: only an operation presented and the sequencer's own step change the
sequencer. -/
theorem seqInv_applyMove {m : Move} {s t : State} (hc : s.cfg.Legal) (h : s.seq.Inv s.cfg)
    (step : applyMove m s = .next t) : t.seq.Inv s.cfg := by
  cases m
  case host op => exact inv_present hc h step
  case seq fate => exact inv_seqStep hc h step
  case record w => exact deliver_seq step ▸ h
  case dataOut bytes => exact outTransfer_seq step ▸ h
  case brg => exact (engineStep_frame (engineStep_of_brgStep step).2).seq ▸ h
  case dataIn n =>
    unfold applyMove at step
    obtain ⟨-, -, ⟨⟩⟩ := inTransfer_eq_next.mp step
    exact h
  case status =>
    unfold applyMove at step
    obtain ⟨-, ⟨⟩⟩ := statusTransfer_eq_next.mp step
    exact h
  all_goals cases step; exact h

/-- Settles O37: every move keeps the invariant of the sequencer. -/
theorem sequencerInvariant : Obligations.SequencerInvariant := by
  intro s t hc h step
  obtain ⟨m, agenda, draws, hm⟩ := step_next step
  have := seqInv_applyMove (s := { s with agenda := agenda, draws := draws }) hc h hm
  exact (inv_applyMove hm).1 ▸ this

end Sys2Proof.Proofs
end

section
/-! No outcome depends on the slew and timing registers (10_state.md R71, 42_mode_commands.md R209): every step
of a state with those put out of sight is the step of the state, with them put out of sight. -/

namespace Sys2Proof.Proofs

open Sys2Proof.Machine Sys2Proof.Laws

/-! ### What is left in sight -/

@[simp] theorem blind_cfg (s : State) : s.blind.cfg = s.cfg := rfl
@[simp] theorem blind_seq (s : State) : s.blind.seq = s.seq := rfl
@[simp] theorem blind_wire (s : State) : s.blind.wire = s.wire := rfl
@[simp] theorem blind_agenda (s : State) : s.blind.agenda = s.agenda := rfl
@[simp] theorem blind_draws (s : State) : s.blind.draws = s.draws := rfl
@[simp] theorem blind_halt (s : State) : s.blind.brg.halt = s.brg.halt := rfl
@[simp] theorem blind_cbuf (s : State) : s.blind.brg.cbuf = s.brg.cbuf := rfl
@[simp] theorem blind_wbuf (s : State) : s.blind.brg.wbuf = s.brg.wbuf := rfl
@[simp] theorem blind_fault (s : State) : s.blind.brg.fault = s.brg.fault := rfl
@[simp] theorem blind_exec (s : State) : s.blind.brg.exec = s.brg.exec := rfl
@[simp] theorem blind_cur (s : State) : s.blind.brg.cur = s.brg.cur := rfl
@[simp] theorem blind_k (s : State) : s.blind.brg.k = s.brg.k := rfl
@[simp] theorem blind_pulse (s : State) : s.blind.brg.pulse = s.brg.pulse := rfl
@[simp] theorem blind_stage (s : State) : s.blind.brg.stage = s.brg.stage := rfl
@[simp] theorem blind_x (s : State) : s.blind.brg.x = s.brg.x := rfl

/-! ### Silence -/

/-- What the function answers does not depend on what is out of sight, but for what is itself out of sight. -/
def Silent (f : State → Out) : Prop := ∀ s, blindOut (f s.blind) = blindOut (f s)

theorem silent_next {g : State → State} (hg : ∀ s, (g s.blind).blind = (g s).blind) :
    Silent fun s => .next (g s) := fun s => congrArg Host.Outcome.next (hg s)

/-- A silent continuation answers alike to outcomes that look alike. -/
theorem Silent.andThen {k : State → Out} (hk : Silent k) {o o' : Out} (h : blindOut o = blindOut o') :
    blindOut (andThen o k) = blindOut (andThen o' k) := by
  cases o <;> cases o' <;> simp only [blindOut, Host.Outcome.next.injEq, reduceCtorEq] at h
  case next.next u u' =>
    calc blindOut (k u) = blindOut (k u.blind) := (hk u).symm
      _ = blindOut (k u'.blind) := by rw [h]
      _ = blindOut (k u') := hk u'
  all_goals simp [blindOut, h]

theorem blindOut_ifSound {s : State} {o o' : Out} (h : blindOut o = blindOut o') :
    blindOut (ifSound s.blind o) = blindOut (ifSound s o') := by
  cases hf : s.brg.fault <;> simp [ifSound, hf, h]

/-- Two branches that are silent, on a condition in sight. -/
theorem blindOut_ite {p : Prop} [Decidable p] {a a' b b' : Out} (ha : blindOut a = blindOut a')
    (hb : blindOut b = blindOut b') : blindOut (if p then a else b) = blindOut (if p then a' else b') := by
  split_ifs <;> assumption

/-! ### Records -/

theorem silent_acceptComm (o : CommOpts) (i : Instr) : Silent (acceptComm o i) := fun _ =>
  blindOut_ifSound <| blindOut_ite rfl <| blindOut_ite rfl <| blindOut_ite rfl <| blindOut_ite rfl <|
    blindOut_ite rfl rfl

theorem silent_search (o : CommOpts) (index : Half) : Silent (execCommSearchAccess o index) := fun _ =>
  blindOut_ifSound <| blindOut_ite rfl rfl

theorem modeWrite_blind (i : Instr) (s : State) :
    State.blind { s.blind with brg := modeWrite s.cfg i s.blind.brg } =
      State.blind { s with brg := modeWrite s.cfg i s.brg } := by
  cases i <;> rfl

theorem flushWrite_blind (i : Instr) (s : State) :
    State.blind { s.blind with brg := flushWrite i s.blind.brg } =
      State.blind { s with brg := flushWrite i s.brg } := by
  cases i <;> rfl

theorem silent_mode {i : Instr} (hi : i.category = .mode) : Silent (exec i) := by
  intro s
  rw [exec_of_mode hi, exec_of_mode hi]
  exact blindOut_ifSound (blindOut_ite rfl (congrArg Host.Outcome.next (modeWrite_blind i s)))

theorem silent_flush {i : Instr} (hi : isFlush i = true) : Silent (exec i) := by
  intro s
  rw [exec_of_flush hi, exec_of_flush hi]
  exact blindOut_ifSound (blindOut_ite rfl (congrArg Host.Outcome.next (flushWrite_blind i s)))

theorem haltPulse_blind (s : State) :
    (execCtlHaltExe.haltPulse s.blind).blind = (execCtlHaltExe.haltPulse s).blind := by
  unfold execCtlHaltExe.haltPulse
  simp only [blind_exec, blind_cur]
  split <;> rfl

theorem silent_halt : Silent execCtlHaltExe := by
  intro s
  refine blindOut_ifSound ?_
  cases hp : s.brg.pulse <;> simp only [blind_pulse, hp]
  case off => rfl
  all_goals
    exact congrArg Host.Outcome.next (haltPulse_blind { s with brg := { s.brg with halt := true } })

/-- Every record. -/
theorem silent_exec (i : Instr) : Silent (exec i) := by
  cases hi : i.category with
  | mode => exact silent_mode hi
  | comm =>
    cases hs : isSearch i with
    | false => intro s; rw [exec_of_comm hi hs, exec_of_comm hi hs]; exact silent_acceptComm _ i s
    | true =>
      cases i <;> simp only [isSearch, Bool.false_eq_true] at hs
      case commSearchAccess o index => exact silent_search o index
  | control =>
    cases i <;> simp only [Instr.category, reduceCtorEq] at hi
    case ctlResetDevice => exact fun _ => rfl
    case ctlResumeExe => exact fun _ => blindOut_ifSound rfl
    case ctlHaltExe => exact silent_halt
    all_goals exact silent_flush rfl

theorem silent_deliver (w : CmdWord) : Silent (deliver w) := by
  intro s
  unfold deliver
  simp only [blind_cfg]
  cases decode s.cfg w with
  | ok i => exact silent_exec i (s.logControl w)
  | error => rfl

/-! ### The WIRE and the engine -/

theorem wireLevel_blind (b : Bool) (s : State) :
    wireLevel b s.blind = ((wireLevel b s).1, (wireLevel b s).2.blind) := by
  unfold wireLevel
  simp only [blind_wire]
  split
  · rfl
  · split
    · split <;> rfl
    · rfl

theorem wireSlot_blind (b : Bool) (s : State) :
    wireSlot b s.blind = ((wireSlot b s).1, (wireSlot b s).2.blind) := by
  simp only [wireSlot, wireLevel_blind]
  rfl

theorem wireReset_blind (s : State) : wireReset s.blind = ((wireReset s).1, (wireReset s).2.blind) := by
  unfold wireReset
  simp only [log_wire, blind_wire]
  split <;> rfl

theorem shiftSlot_blind (s : State) : shiftSlot s.blind = (shiftSlot s).blind := by
  simp only [shiftSlot, blind_x, blind_k, wireSlot_blind]
  rfl

theorem blindOut_pushRead {e : Byte} {s : State} {k : State → Out} (hk : Silent k) :
    blindOut (pushRead e s.blind k) = blindOut (pushRead e s k) :=
  blindOut_ite (hk { s with brg := { s.brg with rbuf := s.brg.rbuf ++ [e] } }) rfl

theorem blindOut_endByte {s : State} {k : State → Out} (hk : Silent k) :
    blindOut (endByte s.blind k) = blindOut (endByte s k) :=
  blindOut_pushRead (s := { s with brg := { s.brg with k := 0, e := 0#8 } }) hk

theorem blindOut_loadByte {s : State} {k : State → Out} (hk : Silent k) :
    blindOut (loadByte s.blind k) = blindOut (loadByte s k) := by
  refine blindOut_ite ?_ (hk s)
  cases hw : s.brg.wbuf with
  | nil => simp only [blind_wbuf, hw]
  | cons x rest =>
    simp only [blind_wbuf, hw]
    exact hk { s with brg := { s.brg with x := x, wbuf := rest } }

theorem silent_afterBody (o : CommOpts) : Silent fun s => .next (afterBody o s) := fun _ => rfl

theorem silent_bodyCommPulse (o : CommOpts) (type : PulseKind) : Silent (bodyCommPulse o type) := by
  intro s
  cases type
  · exact blindOut_ite rfl rfl
  · exact blindOut_ite rfl (blindOut_ite rfl (blindOut_ite rfl rfl))

theorem silent_bodyCommOnewireReset (o : CommOpts) (se : Bool) (speed : Byte) :
    Silent (bodyCommOnewireReset o se speed) := by
  have reset (s : State) : blindOut (.next (afterBody o (addResult (resetResult (wireReset s.blind).1)
      (wireReset s.blind).2))) =
      blindOut (.next (afterBody o (addResult (resetResult (wireReset s).1) (wireReset s).2))) := by
    rw [wireReset_blind]; rfl
  intro s
  cases se
  · exact reset s
  · exact reset { s with brg := { s.brg with speed := speed } }

theorem silent_bodyCommBitIo (o : CommOpts) (d : Bool) : Silent (bodyCommBitIo o d) := by
  intro s
  simp only [bodyCommBitIo, wireSlot_blind]
  exact blindOut_pushRead (silent_afterBody o)

theorem silent_bodyCommByteIo (o : CommOpts) (x : Byte) : Silent (bodyCommByteIo o x) := by
  intro s
  have shift := shiftSlot_blind { s with brg := { s.brg with x := x } }
  unfold bodyCommByteIo
  refine Eq.trans (congrArg (fun t : State => blindOut
    (if t.brg.k = 8 then endByte t fun u => .next (afterBody o u) else .next t)) shift) ?_
  exact blindOut_ite (blindOut_endByte (silent_afterBody o)) rfl

theorem silent_bodyCommBlockIo (o : CommOpts) (n : Half) : Silent (bodyCommBlockIo o n) := by
  intro s
  refine blindOut_ite rfl (blindOut_loadByte fun t => ?_)
  rw [shiftSlot_blind]
  exact blindOut_ite (blindOut_endByte fun v => blindOut_ite rfl rfl) rfl

theorem silent_bodyStep (i : Instr) : Silent (bodyStep i) := by
  cases i
  case commSetDuration o type code => intro s; cases type <;> rfl
  case commBitIo o d => exact silent_bodyCommBitIo o d
  case commPulse o type => exact silent_bodyCommPulse o type
  case commOnewireReset o se speed => exact silent_bodyCommOnewireReset o se speed
  case commByteIo o x => exact silent_bodyCommByteIo o x
  case commBlockIo o n => exact silent_bodyCommBlockIo o n
  all_goals exact fun _ => rfl

theorem silent_resetEpilogue (i : Instr) : Silent fun s => .next (resetEpilogue i s) := by
  intro s
  simp only [resetEpilogue, wireReset_blind]
  rfl

theorem blind_ite {p : Prop} [Decidable p] {a a' b b' : State} (ha : a.blind = a'.blind)
    (hb : b.blind = b'.blind) : (if p then a else b).blind = (if p then a' else b').blind := by
  split_ifs <;> assumption

theorem silent_pullUpEpilogue : Silent fun s => .next (pullUpEpilogue s) :=
  silent_next fun _ => blind_ite rfl rfl

theorem silent_pulseStep : Silent fun s => .next (pulseStep s) :=
  silent_next fun _ => blind_ite rfl rfl

/-- Every step of the engine. -/
theorem silent_brgStep : Silent brgStep := by
  intro s
  refine blindOut_ifSound ?_
  simp only [blind_exec, blind_cur, blind_halt, blind_cbuf, blind_stage]
  split
  · split <;> rfl
  · rfl
  · split
    · exact silent_bodyStep _ s
    · exact silent_resetEpilogue _ s
    · exact silent_pullUpEpilogue s
    · exact silent_pulseStep s
    · rfl

end Sys2Proof.Proofs
end

section
/-! The sequencer, and every move, with the slew and timing registers out of sight. -/

namespace Sys2Proof.Proofs

open Sys2Proof.Machine Sys2Proof.Laws

/-! ### Updates of the sequencer -/

theorem raiseError_blind (e : ErrorKind) (s : State) :
    (raiseError e s.blind).blind = (raiseError e s).blind := by
  unfold raiseError answerError
  simp only [blind_seq]
  split
  · rfl
  · rfl
  · split <;> rfl

theorem endPass_blind (r : EndReason) (s : State) : (endPass r s.blind).blind = (endPass r s).blind :=
  blind_ite rfl rfl

theorem yieldRom_blind (mode : SearchMode) (s : State) :
    (yieldRom mode s.blind).blind = (yieldRom mode s).blind := blind_ite rfl rfl

theorem beginPass_blind (mode : SearchMode) (s : State) :
    (beginPass mode s.blind).blind = (beginPass mode s).blind := blind_ite (endPass_blind _ s) rfl

theorem afterPresence_blind (mode : SearchMode) (s : State) :
    (afterPresence mode s.blind).blind = (afterPresence mode s).blind := blind_ite rfl (endPass_blind _ s)

theorem finishPass_blind (mode : SearchMode) (s : State) :
    (finishPass mode s.blind).blind = (finishPass mode s).blind :=
  blind_ite (yieldRom_blind mode (commitRom s)) (endPass_blind _ s)

theorem recordPosition_blind (mode : SearchMode) (s : State) :
    (recordPosition mode s.blind).blind = (recordPosition mode s).blind := by
  unfold recordPosition
  simp only [blind_seq]
  split
  · exact endPass_blind _ s
  · exact blind_ite rfl rfl

theorem decodeTriplet_blind (d : Bool) (s : State) :
    (decodeTriplet d s.blind).blind = (decodeTriplet d s).blind := by
  unfold decodeTriplet firstByte
  simp only [blind_seq]
  split <;> rfl

theorem silent_pollDecide (idle : Bool) : Silent (pollDecide idle) := fun s =>
  blindOut_ite rfl <| blindOut_ite (congrArg Host.Outcome.next (raiseError_blind _ s)) rfl

/-! ### Transport calls -/

theorem silent_raise (e : ErrorKind) : Silent fun s => .next (raiseError e s) :=
  silent_next (raiseError_blind e)

theorem silent_transport {fate : Fate} {effect k : State → Out} (he : Silent effect) (hk : Silent k) :
    Silent (transport fate effect k) := by
  intro s
  cases fate with
  | ok => exact hk.andThen (he s)
  | lost => exact silent_raise _ s
  | delivered | truncated => exact (silent_raise _).andThen (he s)

theorem silent_id : Silent .next := fun _ => rfl

theorem silent_outTransfer (bytes : List Byte) : Silent (outTransfer bytes) := fun _ =>
  blindOut_ifSound <| blindOut_ite rfl <| blindOut_ite rfl <| blindOut_ite rfl rfl

theorem silent_sendRecord {fate : Fate} {w : CmdWord} {k : State → Out} (hk : Silent k) :
    Silent (sendRecord fate w k) := by
  have tail (b : Bool) : Silent fun t =>
      k (if b then { t with seq := { t.seq with rtail := [] } } else t) := by
    intro t
    cases b
    · exact hk t
    · exact hk { t with seq := { t.seq with rtail := [] } }
  exact fun s => silent_transport (silent_deliver w) (tail (isDeviceReset s.cfg w)) s

theorem silent_setupCall {fate : Fate} {ev : TraceEvent} {k : State → Out} (hk : Silent k) :
    Silent (setupCall fate ev k) := silent_transport (fun _ => rfl) hk

/-! ### Reads -/

theorem recordFlags_blind {s : State} (hc : s.cfg.Legal) :
    recordFlags s.cfg (statusRecord s.blind) = recordFlags s.cfg (statusRecord s) :=
  (recordFlags_statusRecord (s := s.blind) hc).trans (recordFlags_statusRecord hc).symm

theorem recordTaken_blind {s : State} (hc : s.cfg.Legal) : recordTaken s.blind = (recordTaken s).blind := by
  unfold recordTaken
  rw [blind_cfg, recordFlags_blind hc]
  rfl

/-- A status read is silent when what follows looks at the flags of the record alone. -/
theorem blindOut_readStatus {fate : Fate} {k : List Byte → State → Out} {s : State} (hc : s.cfg.Legal)
    (hk : ∀ st st' t, t.cfg = s.cfg → recordFlags s.cfg st = recordFlags s.cfg st' →
      blindOut (k st t.blind) = blindOut (k st' t)) :
    blindOut (readStatus fate k s.blind) = blindOut (readStatus fate k s) := by
  cases fate with
  | lost => exact silent_raise _ s
  | ok =>
    cases hf : s.brg.fault with
    | none =>
      rw [readStatus_ok (s := s.blind) hf, readStatus_ok hf, recordTaken_blind hc]
      exact hk _ _ (recordTaken s) rfl (recordFlags_blind hc)
    | desync =>
      have fault (u : State) (hu : u.brg.fault = .desync) : readStatus .ok k u = .fault .desync :=
        ifSound_desync hu _
      rw [fault s.blind hf, fault s hf]
  | delivered => exact blindOut_ifSound (silent_raise _ (drained s))
  | truncated n =>
    have short (u : State) : takeRecord ((statusRecord u).take n) k (drained u) =
        .next (raiseError .transportError (drained u)) := by
      have := n.isLt
      refine if_pos ?_
      simp only [List.length_take, Config.statusFixedLen]
      omega
    refine blindOut_ifSound (Eq.trans (congrArg blindOut (short s.blind)) ?_)
    exact (silent_raise _ (drained s)).trans (congrArg blindOut (short s)).symm

theorem blindOut_pollOnce {st st' : List Byte} {s : State}
    (h : recordFlags s.cfg st = recordFlags s.cfg st') :
    blindOut (pollOnce st s.blind) = blindOut (pollOnce st' s) := by
  have idle : recordIdle s.cfg st = recordIdle s.cfg st' := congrArg (testFlag · _) h
  have epof : recordEpof s.cfg st = recordEpof s.cfg st' := congrArg (testFlag · _) h
  unfold pollOnce
  rw [blind_cfg, idle, epof]
  exact blindOut_ite rfl (silent_pollDecide _ { s with seq := { s.seq with n := s.seq.n + 1 } })

theorem scanTail_blind {st st' : List Byte} {s : State} (h : recordFlags s.cfg st = recordFlags s.cfg st') :
    (scanTail st s.blind).blind = (scanTail st' s).blind := by
  have vpp : recordVpp s.cfg st = recordVpp s.cfg st' := congrArg (testFlag · _) h
  unfold scanTail
  rw [blind_cfg, vpp]
  rfl

theorem silent_readIn (fate : Fate) (n : Nat) : Silent (readIn fate n) := by
  intro s
  cases fate with
  | lost => exact silent_raise _ s
  | ok =>
    refine blindOut_ifSound (blindOut_ite rfl (blindOut_ite ?_ rfl))
    exact silent_raise _ (bytesTaken n s)
  | delivered | truncated => exact blindOut_ifSound (blindOut_ite rfl (silent_raise _ (bytesTaken n s)))

/-! ### Micro-steps -/

/-- Every micro-step of a legal configuration. -/
theorem blindOut_microStep {m : Micro} {fate : Fate} {s : State} (hc : s.cfg.Legal) :
    blindOut (microStep m fate s.blind) = blindOut (microStep m fate s) := by
  have next {u v : State} (h : u.blind = v.blind) : blindOut (.next u) = blindOut (.next v) :=
    congrArg Host.Outcome.next h
  cases m
  case openDevice => exact silent_setupCall (fun _ => rfl) s
  case claimInterface | setAltSetting | clearHalt => exact silent_setupCall silent_id s
  case ctl w => exact silent_sendRecord silent_id s
  case pollReset idle => exact silent_sendRecord (silent_pollDecide idle) s
  case writeOut bytes => exact silent_transport (silent_outTransfer bytes) silent_id s
  case readIn n => exact silent_readIn fate n s
  case pollRead => exact blindOut_readStatus hc fun _ _ t ht h => blindOut_pollOnce (ht ▸ h)
  case shortCheck => exact blindOut_readStatus hc fun _ _ t ht h => next (scanTail_blind (ht ▸ h))
  case wait due => exact blindOut_ite rfl rfl
  case reraise e => exact silent_raise e s
  case resetTail => exact next (blind_ite rfl (blind_ite rfl rfl))
  case pulseEnd => exact next (blind_ite rfl rfl)
  case block rest => exact next (blind_ite rfl rfl)
  case tripletComp d => exact next (decodeTriplet_blind d s)
  case srchBegin mode => exact next (beginPass_blind mode s)
  case srchPresent mode => exact next (afterPresence_blind mode s)
  case srchBit mode => exact next (recordPosition_blind mode s)
  case srchCommit mode => exact next (finishPass_blind mode s)
  case answer kind => cases kind <;> rfl
  all_goals rfl

theorem blindOut_seqStep {fate : Fate} {s : State} (hc : s.cfg.Legal) :
    blindOut (seqStep fate s.blind) = blindOut (seqStep fate s) := by
  unfold seqStep
  simp only [blind_seq]
  split
  · rfl
  next rest _ => exact blindOut_microStep (s := setPhase rest s) hc

theorem silent_present (op : HostOp) : Silent (present op) := by
  intro s
  have accepted : blindOut (present.accepted op s.blind) = blindOut (present.accepted op s) :=
    blindOut_ite rfl rfl
  unfold present
  refine blindOut_ite rfl ?_
  simp only [blind_seq]
  split
  · rfl
  · rfl
  · exact accepted
  · exact accepted

/-! ### Moves and steps -/

theorem blindOut_applyMove (m : Move) {s : State} (hc : s.cfg.Legal) :
    blindOut (applyMove m s.blind) = blindOut (applyMove m s) := by
  cases m
  case record w => exact silent_deliver w s
  case dataOut bytes => exact silent_outTransfer bytes s
  case dataIn n => exact blindOut_ifSound (blindOut_ite rfl rfl)
  case status => exact blindOut_ifSound rfl
  case host op => exact silent_present op s
  case seq fate => exact blindOut_seqStep hc
  case brg => exact silent_brgStep s
  all_goals rfl

theorem blindOut_step {s : State} (hc : s.cfg.Legal) : blindOut (step s.blind) = blindOut (step s) := by
  unfold step
  simp only [blind_agenda, blind_draws]
  split
  next m rest _ => exact blindOut_applyMove m (s := { s with agenda := rest }) hc
  · exact blindOut_applyMove _ (s := { s with draws := s.draws + 1 }) hc

/-- Settles O59: both steps look like the step of the state in which the registers are out of sight. -/
theorem timingIsSilent : Obligations.TimingIsSilent := by
  intro s s' hc h
  have hc' : s'.cfg.Legal := by
    have : s.blind.cfg = s'.blind.cfg := by rw [h]
    exact this ▸ hc
  calc blindOut (step s) = blindOut (step s.blind) := (blindOut_step hc).symm
    _ = blindOut (step s'.blind) := by rw [h]
    _ = blindOut (step s') := blindOut_step hc'

end Sys2Proof.Proofs
end

section
/-! Who drives the WIRE (20_memory.md R81): what the sequencer and the Transport can change, and that the WIRE
is not among it. -/

namespace Sys2Proof.Proofs

open Sys2Proof.Machine Sys2Proof.Laws

/-! ### Transport calls reach the bridge, never the WIRE behind it -/

/-- Nothing but the agents, the counter of draws and the trace has changed. -/
def TransportFrame (s t : State) : Prop :=
  t = { s with brg := t.brg, seq := t.seq, draws := t.draws, trace := t.trace }

theorem TransportFrame.trans {s t u : State} (h : TransportFrame s t) (k : TransportFrame t u) :
    TransportFrame s u := by
  rw [TransportFrame] at *
  rw [k, h]

theorem TransportFrame.wire {s t : State} (h : TransportFrame s t) : t.wire = s.wire := by rw [h]

theorem SeqFrame.transportFrame {s t : State} (h : SeqFrame s t) : TransportFrame s t := by
  rw [TransportFrame, h]

theorem raiseError_transportFrame {s t : State} (h : TransportFrame s t) (e : ErrorKind) :
    TransportFrame s (raiseError e t) :=
  h.trans (raiseError_seqFrame e t).transportFrame

theorem deliver_transportFrame {w : CmdWord} {s t : State} (h : deliver w s = .next t) :
    TransportFrame s t := by
  obtain ⟨i, -, he⟩ := deliver_eq_next.mp h
  rw [TransportFrame, exec_frame he]
  rfl

theorem outTransfer_transportFrame {bytes : List Byte} {s t : State} (h : outTransfer bytes s = .next t) :
    TransportFrame s t := by
  obtain ⟨-, -, ⟨-, rfl⟩ | ⟨-, -, rfl⟩⟩ := outTransfer_eq_next.mp h <;> rfl

/-- A call keeps the frame when its effect in the bridge and what follows it do. -/
theorem transport_transportFrame {fate : Fate} {effect k : State → Out} {s t : State}
    (heff : ∀ u, effect s = .next u → TransportFrame s u) (hk : ∀ u v, k u = .next v → SeqFrame u v)
    (h : transport fate effect k s = .next t) : TransportFrame s t := by
  obtain ⟨-, rfl⟩ | ⟨-, u, he, hu⟩ | ⟨-, u, he, rfl⟩ := transport_eq_next.mp h
  · exact (raiseError_seqFrame _ s).transportFrame
  · exact (heff u he).trans (hk u t hu).transportFrame
  · exact raiseError_transportFrame (heff u he) _

theorem sendRecord_transportFrame {fate : Fate} {w : CmdWord} {k : State → Out} {s t : State}
    (hk : ∀ u v, k u = .next v → SeqFrame u v) (h : sendRecord fate w k s = .next t) :
    TransportFrame s t := by
  refine transport_transportFrame (fun _ => deliver_transportFrame) (fun u v hv => ?_) h
  refine SeqFrame.trans ?_ (hk _ v hv)
  split_ifs <;> rfl

theorem readStatus_transportFrame {fate : Fate} {k : List Byte → State → Out} {s t : State}
    (hk : ∀ st u v, k st u = .next v → SeqFrame u v) (h : readStatus fate k s = .next t) :
    TransportFrame s t := by
  obtain ⟨-, rfl⟩ | ⟨-, ⟨-, -, rfl⟩ | ⟨-, h⟩⟩ := readStatus_next h
  · exact (raiseError_seqFrame _ s).transportFrame
  · exact raiseError_transportFrame (t := drained s) rfl _
  · exact TransportFrame.trans (t := recordTaken s) rfl (hk _ _ t h).transportFrame

theorem readIn_transportFrame {fate : Fate} {n : Nat} {s t : State} (h : readIn fate n s = .next t) :
    TransportFrame s t := by
  obtain ⟨-, rfl⟩ | ⟨-, -, ⟨-, rfl⟩ | ⟨-, -, rfl⟩⟩ := readIn_next h
  · exact (raiseError_seqFrame _ s).transportFrame
  · exact raiseError_transportFrame (t := bytesTaken n s) rfl _
  · rfl

/-! ### Micro-steps and moves -/

/-- Only the calls among the micro-steps touch more than the sequencer and the trace; each keeps the frame. -/
theorem microStep_transportFrame {m : Micro} {fate : Fate} {s t : State}
    (h : microStep m fate s = .next t) : TransportFrame s t := by
  have next {u v : State} (h : Host.Outcome.next u = (.next v : Out)) : SeqFrame u v := by cases h; rfl
  have done {u : State} (h : Host.Outcome.next u = (.next t : Out)) (hu : SeqFrame s u) :
      TransportFrame s t := (hu.trans (next h)).transportFrame
  cases m
  case openDevice => exact (setupCall_onBridge (fun _ _ h => by cases h; rfl) h).transportFrame
  case claimInterface | setAltSetting | clearHalt =>
    exact (setupCall_onBridge (fun _ _ => next) h).transportFrame
  case ctl w => exact sendRecord_transportFrame (fun _ _ => next) h
  case pollReset idle => exact sendRecord_transportFrame (fun _ _ => pollDecide_seqFrame) h
  case writeOut bytes =>
    exact transport_transportFrame (fun _ => outTransfer_transportFrame) (fun _ _ => next) h
  case readIn n => exact readIn_transportFrame h
  case pollRead => exact readStatus_transportFrame (fun _ _ _ => pollOnce_seqFrame) h
  case shortCheck => exact readStatus_transportFrame (fun _ _ _ h => by cases h; rfl) h
  case wait due =>
    simp only [microStep] at h
    split_ifs at h <;> cases h <;> rfl
  case reraise e => exact done h (raiseError_seqFrame e s)
  case resetTail => exact done h (resetTail_seqFrame s)
  case pulseEnd => exact done h (endPulse_seqFrame s)
  case block rest => exact done h (nextChunk_seqFrame rest s)
  case tripletComp d => exact done h (decodeTriplet_seqFrame d s)
  case srchBegin mode => exact done h (beginPass_seqFrame mode s)
  case srchPresent mode => exact done h (afterPresence_seqFrame mode s)
  case srchBit mode => exact done h (recordPosition_seqFrame mode s)
  case srchCommit mode => exact done h (finishPass_seqFrame mode s)
  all_goals exact done h rfl

theorem seqStep_transportFrame {fate : Fate} {s t : State} (h : seqStep fate s = .next t) :
    TransportFrame s t := by
  obtain ⟨-, rfl⟩ | ⟨m, rest, -, h⟩ := seqStep_next h
  · rfl
  · exact TransportFrame.trans (t := setPhase rest s) rfl (microStep_transportFrame h)

/-- Settles O29: records, transfers, the HOST and the sequencer keep the frame of the Transport, and the
environment's other moves write the clock, the pins or the bridge. -/
theorem onlyBridgeDrivesWire : Obligations.OnlyBridgeDrivesWire := by
  intro m s t h engine rewired
  cases m
  case brg => exact absurd rfl engine
  case rewire w => exact absurd rfl (rewired w)
  case record w => exact (deliver_transportFrame h).wire
  case dataOut bytes => exact (outTransfer_transportFrame h).wire
  case dataIn n =>
    unfold applyMove at h
    obtain ⟨-, -, ⟨⟩⟩ := inTransfer_eq_next.mp h
    rfl
  case status =>
    unfold applyMove at h
    obtain ⟨-, ⟨⟩⟩ := statusTransfer_eq_next.mp h
    rfl
  case host op => exact (present_seqFrame h).transportFrame.wire
  case seq fate => exact (seqStep_transportFrame h).wire
  all_goals cases h; rfl

end Sys2Proof.Proofs
end

section
/-! The status read and the bulk transfers (20_memory.md R91 to R93), made directly and by the sequencer. -/

namespace Sys2Proof.Proofs

open Sys2Proof.Machine Sys2Proof.Laws

/-! ### The status read (R91) -/

/-- A sound bridge hands over its record, and its tail is drained. -/
theorem statusTransfer_sound {s : State} (sound : s.brg.fault = .none) (k : List Byte → State → Out) :
    statusTransfer s k = k (statusRecord s) (drained s) :=
  ifSound_none sound _

/-- A call the bridge answered, with the answer lost on its way back. -/
theorem readStatus_delivered {s : State} (sound : s.brg.fault = .none) (k : List Byte → State → Out) :
    readStatus .delivered k s = .next (raiseError .transportError (drained s)) := by
  rw [readStatus, statusTransfer_sound sound]

/-- Settles O32: the direct read, the two fates of a failed one, and the fault while `DESYNC`. -/
theorem statusRead : Obligations.StatusRead := by
  refine fun s => ⟨fun sound => ⟨?_, fun k => ⟨?_, ?_⟩⟩, fun desync => ?_⟩
  · rw [applyMove, statusTransfer_sound sound]
    rfl
  · rfl
  · exact readStatus_delivered sound k
  · exact ifSound_desync desync _

/-! ### The bulk write (R92) -/

/-- A write past `BUF_CAP` is refused. -/
theorem outTransfer_full {bytes : List Byte} {s : State} (sound : s.brg.fault = .none) (ne : bytes ≠ [])
    (free : s.brg.outstanding = false) (full : s.cfg.bufCap < s.brg.wbuf.length + bytes.length) :
    outTransfer bytes s = .refused .writeBufferFull := by
  simp [outTransfer, sound, ne, free, full]

/-- Settles O33: the hazard, the write that fits, and the write that does not. -/
theorem dataOutWrite : Obligations.DataOutWrite := by
  intro bytes s ne sound
  have nonempty : bytes.isEmpty = false := List.isEmpty_eq_false_iff.mpr ne
  refine ⟨fun out => ?_, fun free room => ?_, fun free full => ?_⟩
  · exact outTransfer_eq_next.mpr ⟨sound, nonempty, .inl ⟨out, rfl⟩⟩
  · exact outTransfer_eq_next.mpr ⟨sound, nonempty, .inr ⟨free, room, rfl⟩⟩
  · exact outTransfer_full sound ne free full

/-! ### The bulk read (R93) -/

/-- A sound bridge hands over the oldest bytes it has. -/
theorem inTransfer_sound {n : Nat} {s : State} (sound : s.brg.fault = .none) (hn : n ≠ 0)
    (k : List Byte → State → Out) :
    inTransfer n s k = k (s.brg.rbuf.take n) (bytesTaken n s) :=
  (ifSound_none sound _).trans (if_neg hn)

theorem bytesTaken_eq {n : Nat} {s : State} {got rest : List Byte} (taken : s.brg.rbuf.take n = got)
    (left : s.brg.rbuf.drop n = rest) :
    bytesTaken n s = { s with brg := { s.brg with rbuf := rest } }.logIn got := by
  rw [bytesTaken, taken, left]

/-- A direct read leaves its answer in `lastIn` (log 20), short or not. -/
theorem applyMove_dataIn {n : Nat} {s : State} (sound : s.brg.fault = .none) (hn : n ≠ 0) :
    applyMove (.dataIn n) s = .next { bytesTaken n s with lastIn := s.brg.rbuf.take n } := by
  rw [applyMove, inTransfer_sound sound hn]

theorem readIn_whole {n : Nat} {s : State} (sound : s.brg.fault = .none) (hn : n ≠ 0)
    (enough : n ≤ s.brg.rbuf.length) :
    readIn .ok n s = .next { bytesTaken n s with seq :=
      { s.seq with bytes := s.seq.bytes ++ s.brg.rbuf.take n } } := by
  rw [readIn, inTransfer_sound sound hn, if_neg (by rw [List.length_take]; omega)]
  rfl

theorem readIn_short {n : Nat} {s : State} (sound : s.brg.fault = .none)
    (short : s.brg.rbuf.length < n) :
    readIn .ok n s = .next (raiseError .transportError (bytesTaken n s)) := by
  rw [readIn, inTransfer_sound sound (by omega), if_pos (by rw [List.length_take]; omega)]

/-- Settles O34: in both cases the read takes `got` and leaves `rest`; the sequencer compares the lengths. -/
theorem dataInRead : Obligations.DataInRead := by
  intro s got rest n sound pos hbuf
  have hn : n ≠ 0 := by omega
  refine ⟨fun whole => ?_, ?_⟩
  · have taken : s.brg.rbuf.take n = got := by rw [hbuf, ← whole, List.take_left]
    have left : s.brg.rbuf.drop n = rest := by rw [hbuf, ← whole, List.drop_left]
    have enough : n ≤ s.brg.rbuf.length := by simp [hbuf, whole]
    rw [applyMove_dataIn sound hn, readIn_whole sound hn enough, bytesTaken_eq taken left, taken]
    exact ⟨rfl, rfl⟩
  · rintro short rfl
    rw [List.append_nil] at hbuf
    rw [← hbuf] at short
    have taken : s.brg.rbuf.take n = got := by rw [List.take_of_length_le short.le, hbuf]
    have left : s.brg.rbuf.drop n = [] := List.drop_of_length_le short.le
    rw [applyMove_dataIn sound hn, readIn_short sound short, bytesTaken_eq taken left, taken]
    exact ⟨rfl, rfl⟩

end Sys2Proof.Proofs
end

section
/-! Decoding and encoding together (30_encoding.md R121, R125): what is encoded decodes, and what decodes
encodes back. -/

namespace Sys2Proof.Proofs

open Sys2Proof.Machine Sys2Proof.Laws

/-- Settles O1: category by category, the fields of the encoded record are read back. -/
theorem decodeEncode : Obligations.DecodeEncode := fun _ _ hc hw => decode_encode hc hw

/-- Settles O3: the decoder evaluates each word. -/
theorem sampleWords : Obligations.SampleWords := ⟨rfl, rfl, rfl, rfl, rfl⟩

/-! ### Bits under a mask -/

/-- A half-word with every bit outside `m` clear is what `m` leaves of it. -/
theorem and_eq_self_of_clear {v m : Half} (h : v.clear (~~~m) = true) : v &&& m = v := by
  rw [Half.clear, beq_iff_eq] at h
  calc v &&& m = (v &&& m) ||| (v &&& ~~~m) := by rw [h, BitVec.or_zero]
    _ = v := by rw [← BitVec.and_or_distrib_left, BitVec.or_not_self, BitVec.and_allOnes]

/-- An option whose mask is one bit is set back as it was read (R113). -/
theorem optMask_not_clear {m : Half} (hm : ∃ k < 16, m = BitVec.twoPow 16 k) (v : Half) :
    optMask (!v.clear m) m = v &&& m := by
  obtain ⟨k, hk, rfl⟩ := hm
  have hne : BitVec.twoPow 16 k ≠ 0#16 := fun h => by
    simpa [hk] using congrArg (BitVec.getLsbD · k) h
  rw [Half.clear, BitVec.and_twoPow]
  cases v.getLsbD k <;> simp [optMask, hne]

/-- `TYPE` is bit 3. -/
theorem decodeType_bit (c : Config) (v : Half) : (decodeType c v).bit = decodeB3 c v := by
  unfold decodeType
  cases decodeB3 c v <;> rfl

/-- A one-bit value is set back as it was read (R120). -/
theorem optMask_speedChange {x : Half} (h : x.clear 0xFFFE#16 = true) :
    optMask (x.getLsbD 0) 0x0001#16 = x :=
  calc optMask (x.getLsbD 0) 0x0001#16 = x &&& BitVec.twoPow 16 0 := (BitVec.and_twoPow x 0).symm
    _ = x := and_eq_self_of_clear h

/-! ### What the decoder reads is what the encoder writes -/

theorem decodeControl_fields {c : Config} {v x : Half} {i : Instr} (h : decodeControl c v x = .ok i) :
    i.category = .control ∧ i.value c = v ∧ i.index c = if i.ignoresIndex then 0#16 else x := by
  unfold decodeControl at h
  split_ifs at h <;> cases h <;> subst_vars <;> exact ⟨rfl, rfl, rfl⟩

theorem control_of_ignoresIndex {i : Instr} (hi : i.ignoresIndex = true) : i.category = .control := by
  cases i <;> simp only [Instr.ignoresIndex, Bool.false_eq_true] at hi <;> rfl

theorem ignoresIndex_eq_false {i : Instr} (h : i.category ≠ .control) : i.ignoresIndex = false :=
  Bool.eq_false_iff.mpr (mt control_of_ignoresIndex h)

section Legal

variable {c : Config} (hc : c.Legal)

include hc

/-- A comm value with no reserved bit is its code with its options (R113, R117). -/
theorem commValue_decoded {v : Half} (hr : v.clear c.commReserved = true) :
    commValue c (v &&& c.comm.codeMask) (decodeOpts c v) (decodeB3 c v) = v := by
  have bit : ∀ m ∈ [c.comm.optIM, c.comm.optB3, c.comm.optRA, c.comm.optAC, c.comm.optSPU],
      optMask (!v.clear m) m = v &&& m := fun m hm => optMask_not_clear (hc.optionBits m hm) v
  simp only [List.forall_mem_cons] at bit
  obtain ⟨im, b3, ra, ac, spu, -⟩ := bit
  simp only [commValue, decodeOpts, decodeB3, im, b3, ra, ac, spu, ← BitVec.and_or_distrib_left]
  exact and_eq_self_of_clear hr

/-- The two bits of `MODE_PULSE_EN` are set back as they were read (R120). -/
theorem optMask_pulseEn {x : Half} (h : x.clear (~~~(c.mode.valSPUE ||| c.mode.valPRGE)) = true) :
    optMask (!x.clear c.mode.valSPUE) c.mode.valSPUE |||
      optMask (!x.clear c.mode.valPRGE) c.mode.valPRGE = x := by
  have bit : ∀ m ∈ [c.mode.valSPUE, c.mode.valPRGE], optMask (!x.clear m) m = x &&& m := fun m hm => by
    obtain ⟨k, hk, hm⟩ := hc.pulseEnBits m hm
    exact optMask_not_clear ⟨k, by omega, hm⟩ x
  simp only [List.forall_mem_cons] at bit
  obtain ⟨spue, prge, -⟩ := bit
  rw [spue, prge, ← BitVec.and_or_distrib_left]
  exact and_eq_self_of_clear h

theorem commValue_eq {v code : Half} {b3 : Bool} (hr : ¬(!v.clear c.commReserved) = true)
    (hcode : v &&& c.comm.codeMask = code) (hb : decodeB3 c v = b3) :
    commValue c code (decodeOpts c v) b3 = v := by
  subst hcode hb
  exact commValue_decoded hc (by simpa using hr)

theorem decodeComm_fields {v x : Half} {i : Instr} (h : decodeComm c v x = .ok i) :
    i.category = .comm ∧ i.value c = v ∧ i.index c = x := by
  unfold decodeComm at h
  dsimp only at h
  split_ifs at h with hr h₁ h₂ h₃ h₄ _ h₅ h₆ h₇
  all_goals obtain ⟨hb, hx, rfl⟩ := allowed_eq_ok.mp h
  · exact ⟨rfl, commValue_eq hc hr h₁ (decodeType_bit c v).symm, zext16_of_high (eq_of_beq hx)⟩
  · exact ⟨rfl, commValue_eq hc hr h₂ rfl, (eq_of_beq hx).symm⟩
  · exact ⟨rfl, commValue_eq hc hr h₃ (decodeType_bit c v).symm, (eq_of_beq hx).symm⟩
  · exact ⟨rfl, commValue_eq hc hr h₄ rfl, zext16_of_high (eq_of_beq (Bool.and_eq_true_iff.mp hx).1)⟩
  · exact ⟨rfl, commValue_eq hc hr h₄ rfl, zext16_of_high (eq_of_beq (Bool.and_eq_true_iff.mp hx).1)⟩
  · exact ⟨rfl, commValue_eq hc hr h₅ (by simpa using hb), zext16_of_high (eq_of_beq hx)⟩
  · exact ⟨rfl, commValue_eq hc hr h₆ (by simpa using hb), rfl⟩
  · exact ⟨rfl, commValue_eq hc hr h₇ (by simpa using hb), rfl⟩

theorem decodeMode_fields {v x : Half} {i : Instr} (h : decodeMode c v x = .ok i) :
    i.category = .mode ∧ i.value c = v ∧ i.index c = x := by
  unfold decodeMode at h
  dsimp only at h
  split_ifs at h with h₁ h₂ h₃ h₄ h₅ h₆ h₇ h₈
  all_goals obtain ⟨hx, rfl⟩ := admitMode_eq_ok.mp h
  · exact ⟨rfl, h₁.symm, optMask_pulseEn hc hx⟩
  · exact ⟨rfl, h₂.symm, optMask_speedChange hx⟩
  · exact ⟨rfl, h₃.symm, zext16_of_high (eq_of_beq (Bool.and_eq_true_iff.mp hx).1)⟩
  · exact ⟨rfl, h₄.symm, zext16_of_high (eq_of_beq hx)⟩
  · exact ⟨rfl, h₅.symm, zext16_of_high (eq_of_beq hx)⟩
  · exact ⟨rfl, h₆.symm, zext16_of_high (eq_of_beq hx)⟩
  · exact ⟨rfl, h₇.symm, zext16_of_high (eq_of_beq hx)⟩
  · exact ⟨rfl, h₈.symm, zext16_of_high (eq_of_beq hx)⟩

/-- The three fields of a word that decodes, as the encoder writes them (R112, R125). -/
theorem decode_fields {w : CmdWord} {i : Instr} (h : decode c w = .ok i) :
    c.categoryCode i.category = w.cat ∧ i.value c = w.value ∧
      i.index c = if i.ignoresIndex then 0#16 else w.index := by
  unfold decode at h
  split_ifs at h with h₁ h₂ h₃
  · obtain ⟨cat, value, index⟩ := decodeControl_fields h
    exact ⟨cat ▸ h₁.symm, value, index⟩
  · obtain ⟨cat, value, index⟩ := decodeComm_fields hc h
    have keeps : i.ignoresIndex = false := ignoresIndex_eq_false (by simp [cat])
    exact ⟨cat ▸ h₂.symm, value, by simpa [keeps] using index⟩
  · obtain ⟨cat, value, index⟩ := decodeMode_fields hc h
    have keeps : i.ignoresIndex = false := ignoresIndex_eq_false (by simp [cat])
    exact ⟨cat ▸ h₃.symm, value, by simpa [keeps] using index⟩

/-- What decodes encodes back, but for an index the bridge ignores (R112, R125). -/
theorem encode_of_decode {w : CmdWord} {i : Instr} (h : decode c w = .ok i) :
    encode c i = if i.ignoresIndex then cmdWord w.cat w.value 0#16 else w := by
  obtain ⟨cat, value, index⟩ := decode_fields hc h
  rw [encode, cat, value, index]
  cases i.ignoresIndex
  · exact cmdWord_fields w
  · rfl

end Legal

end Sys2Proof.Proofs
end

section
/-! The opcode table in the reference binding: what decodes matches its row, and no word matches two rows
(30_encoding.md R115, R116, R120). -/

namespace Sys2Proof.Proofs

open Sys2Proof.Machine Sys2Proof.Laws

/-! ### A row field by field -/

/-- A row is matched field by field. -/
theorem admits_iff (r : TableRow) (w : CmdWord) :
    r.admits w = true ↔ w.cat &&& r.mask.cat = r.pattern.cat ∧
      w.value &&& r.mask.value = r.pattern.value ∧ w.index &&& r.mask.index = r.pattern.index := by
  have fields : (w &&& r.mask).cat = w.cat &&& r.mask.cat ∧
      (w &&& r.mask).value = w.value &&& r.mask.value ∧
      (w &&& r.mask).index = w.index &&& r.mask.index :=
    ⟨BitVec.extractLsb'_and .., BitVec.extractLsb'_and .., BitVec.extractLsb'_and ..⟩
  obtain ⟨cat, value, index⟩ := fields
  rw [TableRow.admits, beq_iff_eq, ← cat, ← value, ← index]
  refine ⟨fun h => by simp [h], fun ⟨hcat, hvalue, hindex⟩ => ?_⟩
  rw [← cmdWord_fields (w &&& r.mask), hcat, hvalue, hindex, cmdWord_fields]

/-! ### What decodes matches its row -/

/-- A byte operand sets no bit above bit 7. -/
theorem zext16_and_high (b : Byte) : zext16 b &&& 0xFF00#16 = 0#16 := by
  apply BitVec.eq_of_getLsbD_eq
  intro k hk
  interval_cases k <;> simp [zext16]

theorem optMask_and_eq_zero {b : Bool} {m k : Half} (h : b = false ∨ m &&& k = 0#16) :
    optMask b m &&& k = 0#16 := by
  rw [optMask_and]
  obtain rfl | h := h
  · rfl
  · rw [h]; cases b <;> rfl

/-- Under a mask that meets no option in use, a comm value is its code. -/
theorem commValue_and {c : Config} {code k : Half} {o : CommOpts} {b3 : Bool}
    (im : o.im = false ∨ c.comm.optIM &&& k = 0#16) (hb : b3 = false ∨ c.comm.optB3 &&& k = 0#16)
    (ra : o.ra = false ∨ c.comm.optRA &&& k = 0#16) (ac : o.ac = false ∨ c.comm.optAC &&& k = 0#16)
    (spu : o.spu = false ∨ c.comm.optSPU &&& k = 0#16) :
    commValue c code o b3 &&& k = code &&& k := by
  simp only [commValue, BitVec.and_or_distrib_right, optMask_and_eq_zero im, optMask_and_eq_zero hb,
    optMask_and_eq_zero ra, optMask_and_eq_zero ac, optMask_and_eq_zero spu, BitVec.or_zero]

/-- The three value masks of the comm rows: every option, all but bit 3, all but `SPU` and `RA` (R118). -/
theorem reference_commValue_and (code : Half) (o : CommOpts) (b3 : Bool) :
    commValue Config.reference code o b3 &&& 0xEAF6#16 = code &&& 0xEAF6#16 ∧
      commValue Config.reference code o false &&& 0xEAFE#16 = code &&& 0xEAFE#16 ∧
      (o.noEpilogue = true →
        commValue Config.reference code o b3 &&& 0xFBF6#16 = code &&& 0xFBF6#16) := by
  refine ⟨?_, ?_, fun ho => ?_⟩
  · exact commValue_and (.inr rfl) (.inr rfl) (.inr rfl) (.inr rfl) (.inr rfl)
  · exact commValue_and (.inr rfl) (.inl rfl) (.inr rfl) (.inr rfl) (.inr rfl)
  · simp only [CommOpts.noEpilogue, Bool.and_eq_true, Bool.not_eq_true'] at ho
    exact commValue_and (.inr rfl) (.inr rfl) (.inl ho.2) (.inr rfl) (.inl ho.1)

/-- An encoded record matches the row of its instruction: the options it may take and its operand set no
bit that the row fixes (R117 to R120). -/
theorem admits_encode {i : Instr} (hw : i.wellFormed Config.reference = true) :
    i.row.admits (encode Config.reference i) = true := by
  rw [admits_iff, encode, cmdWord_cat, cmdWord_value, cmdWord_index]
  cases i <;> dsimp only [Instr.category, Instr.value, Instr.index, Instr.row]
  case commSetDuration o type code =>
    exact ⟨rfl, (reference_commValue_and _ o type.bit).2.2 hw, zext16_and_high code⟩
  case commBitIo o d => exact ⟨rfl, (reference_commValue_and _ o d).1, rfl⟩
  case commPulse o type => exact ⟨rfl, (reference_commValue_and _ o type.bit).2.2 hw, rfl⟩
  case commOnewireReset o se speed =>
    have ho : o.noEpilogue = true := (Bool.and_eq_true_iff.mp hw).1
    exact ⟨rfl, (reference_commValue_and _ o se).2.2 ho, zext16_and_high speed⟩
  case commByteIo o x => exact ⟨rfl, (reference_commValue_and _ o false).2.1, zext16_and_high x⟩
  case commBlockIo o n => exact ⟨rfl, (reference_commValue_and _ o false).2.1, BitVec.and_zero⟩
  case commSearchAccess o index =>
    exact ⟨rfl, (reference_commValue_and _ o false).2.1, BitVec.and_zero⟩
  case modePulseEn spue prge => cases spue <;> cases prge <;> exact ⟨rfl, rfl, rfl⟩
  case modeSpeedChangeEn spce => cases spce <;> exact ⟨rfl, rfl, rfl⟩
  case modeBusSpeed speed => exact ⟨rfl, rfl, zext16_and_high speed⟩
  case modePullupDuration code => exact ⟨rfl, rfl, zext16_and_high code⟩
  case modeSlewRate code => exact ⟨rfl, rfl, zext16_and_high code⟩
  case modePulseDuration code => exact ⟨rfl, rfl, zext16_and_high code⟩
  case modeTiming0 code => exact ⟨rfl, rfl, zext16_and_high code⟩
  case modeTiming1 code => exact ⟨rfl, rfl, zext16_and_high code⟩
  all_goals exact ⟨rfl, rfl, rfl⟩

/-- A row of a record whose index is ignored asks nothing of the index (R112). -/
theorem admits_of_ignoresIndex {i : Instr} (hi : i.ignoresIndex = true) (w : CmdWord) (x : Half) :
    i.row.admits w = i.row.admits (cmdWord w.cat w.value x) := by
  have mask : i.row.mask.index = 0#16 := by
    cases i <;> simp only [Instr.ignoresIndex, Bool.false_eq_true] at hi <;> rfl
  rw [Bool.eq_iff_iff, admits_iff, admits_iff, mask]
  simp

theorem admits_of_decode {w : CmdWord} {i : Instr} (h : decode Config.reference w = .ok i) :
    i.row.admits w = true := by
  have back := encode_of_decode reference_legal h
  have row := admits_encode (decode_wellFormed h)
  rw [back] at row
  cases hi : i.ignoresIndex with
  | false => simpa [hi] using row
  | true =>
    rw [admits_of_ignoresIndex hi w 0#16]
    simpa [hi] using row

/-! ### The rows apart -/

/-- The 21 rows of the table, each by an instruction of its own. -/
def tableRows : List TableRow :=
  ([.ctlResetDevice, .ctlResumeExe, .ctlHaltExe, .ctlFlushComm, .ctlFlushRead, .ctlFlushWrite,
    .commSetDuration .plain .spu 0#8, .commBitIo .plain false, .commPulse .plain .spu,
    .commOnewireReset .plain false 0#8, .commByteIo .plain 0#8, .commBlockIo .plain 0#16,
    .commSearchAccess .plain 0#16, .modePulseEn false false, .modeSpeedChangeEn false,
    .modeBusSpeed 0#8, .modePullupDuration 0#8, .modeSlewRate 0#8, .modePulseDuration 0#8,
    .modeTiming0 0#8, .modeTiming1 0#8] : List Instr).map Instr.row

theorem row_mem_tableRows (i : Instr) : i.row ∈ tableRows := by
  cases i <;> simp [tableRows, Instr.row]

/-- Two rows of the table that agree wherever both fix a bit are one row. -/
theorem tableRows_apart : ∀ a ∈ tableRows, ∀ b ∈ tableRows,
    a.pattern &&& b.mask = b.pattern &&& a.mask → a = b := by decide

/-- Two rows that match one word agree wherever both fix a bit. -/
theorem admits_agree {a b : TableRow} {w : CmdWord} (ha : a.admits w = true) (hb : b.admits w = true) :
    a.pattern &&& b.mask = b.pattern &&& a.mask := by
  rw [TableRow.admits, beq_iff_eq] at ha hb
  rw [← ha, ← hb, BitVec.and_assoc, BitVec.and_assoc, BitVec.and_comm a.mask]

/-- Settles O2: the word's fields are written back, the row is matched by the encoded record, and rows that
match one word agree on the bits they both fix. -/
theorem encodeDecode : Obligations.EncodeDecode := by
  refine ⟨fun c w i hc h => ⟨decode_wellFormed h, encode_of_decode hc h⟩,
    fun w i h => admits_of_decode h, fun w i j hi hj => ?_⟩
  exact tableRows_apart i.row (row_mem_tableRows i) j.row (row_mem_tableRows j) (admits_agree hi hj)

end Sys2Proof.Proofs
end

section
/-! The requests of `Encode`, and `CMD`'s answer to one that does not encode (30_encoding.md R125,
43_sequencer_primitives.md R244). -/

namespace Sys2Proof.Proofs

open Sys2Proof.Machine Sys2Proof.Laws

/-! ### What `Encode` answers -/

theorem nameable_iff {r : CmdRequest} :
    r.nameable = true ↔ r.name.category = r.cat ∧ r.operand < 65536 := by
  rw [CmdRequest.nameable, Bool.and_eq_true, beq_iff_eq, decide_eq_true_eq]

/-- The requests that `Encode` accepts, and what it answers. -/
theorem encodeRequest_eq_some {c : Config} {r : CmdRequest} {w : CmdWord} : encodeRequest c r = some w ↔
    (r.name.category = r.cat ∧ r.operand < 65536) ∧ (∃ i, decode c (r.word c) = .ok i) ∧ r.word c = w := by
  rw [← nameable_iff, encodeRequest]
  cases r.nameable <;> cases decode c (r.word c) <;> simp

/-- The requests that `Encode` refuses. -/
theorem encodeRequest_eq_none {c : Config} {r : CmdRequest} : encodeRequest c r = none ↔
    r.name.category ≠ r.cat ∨ 65535 < r.operand ∨ ∃ e, decode c (r.word c) = .error e := by
  have name : r.nameable = false ↔ r.name.category ≠ r.cat ∨ 65535 < r.operand := by
    rw [← Bool.not_eq_true, nameable_iff, not_and_or, Nat.not_lt]
    exact Iff.rfl
  rw [← or_assoc, ← name, encodeRequest]
  cases r.nameable <;> cases decode c (r.word c) <;> simp

/-! ### The words of requests -/

theorem categoryCode_injective {c : Config} (hc : c.Legal) : Function.Injective c.categoryCode := by
  have h := hc.cats
  intro a b hab
  cases a <;> cases b <;> simp_all [Config.categoryCode]

/-- The control records that ignore their index are not flushes. -/
theorem value_ne_flush {c : Config} (hc : c.Legal) {i : Instr} (hi : i.ignoresIndex = true) :
    i.value c ≠ c.ctl.flush := by
  have hs := hc.selectors
  cases i <;> simp only [Instr.ignoresIndex, Bool.false_eq_true] at hi <;>
    exact fun h => by simp_all [Instr.value]

/-- The three control records that ignore their index are not built with one (R112, R125). -/
theorem word_index_of_ignoresIndex {c : Config} (hc : c.Legal) {r : CmdRequest} {i : Instr}
    (h : decode c (r.word c) = .ok i) (hi : i.ignoresIndex = true) : (r.word c).index = 0#16 := by
  obtain ⟨cat, value, -⟩ := decode_fields hc h
  obtain ⟨rcat, name, opts, b3, operand⟩ := r
  have hr : rcat = .control := categoryCode_injective hc (by
    rw [← control_of_ignoresIndex hi, cat]
    cases rcat <;> exact (cmdWord_cat _ _ _).symm)
  subst hr
  have notFlush : name ≠ .flush := by
    rintro rfl
    exact value_ne_flush hc hi (value.trans (cmdWord_value _ _ _))
  simp [CmdRequest.word, notFlush]

/-- The request for an instruction builds its record, reserved or not. -/
theorem word_request (c : Config) (i : Instr) : (i.request c).word c = encode c i := by
  cases i <;> simp [Instr.request, CmdRequest.word, encode, Instr.category, Instr.cmdName, Instr.optsB3,
    Config.categoryCode, Config.code, Instr.value, Instr.index]

theorem category_cmdName (i : Instr) : i.cmdName.category = i.category := by cases i <;> rfl

/-! ### `CMD` -/

/-- `CMD` presented with a request that does not encode (R125, R333). -/
theorem present_cmd_error {s : State} {r : CmdRequest} (out : List Nat) (nIn : Nat)
    (opened : s.seq.handle = .opened) (free : s.seq.busy = false) (h : encodeRequest s.cfg r = none) :
    present (.cmd r out nIn) s = .next { s with seq :=
      { s.seq with answer := some (.error .callerError .cmd s.seq.lastSf) } } := by
  have bad : operandsOk s.cfg (.cmd r out nIn) = false := by simp [operandsOk, h]
  unfold present present.accepted
  rw [free, opened, bad]
  rfl

/-- Settles O60: a word that `Encode` answers is a record that encodes back, the request for a record builds
its word, and a request that `Encode` refuses is an operand out of range. -/
theorem encodeRequests : Obligations.EncodeRequests := by
  refine ⟨fun c r w hc h => ?_, fun c i hc hw => ?_, fun c r => encodeRequest_eq_none,
    fun s r out nIn opened free h => present_cmd_error out nIn opened free h⟩
  · obtain ⟨-, ⟨i, hd⟩, rfl⟩ := encodeRequest_eq_some.mp h
    refine ⟨i, hd, decode_wellFormed hd, ?_⟩
    rw [encode_of_decode hc hd]
    split_ifs with hi
    · rw [← word_index_of_ignoresIndex hc hd hi, cmdWord_fields]
    · rfl
  · have fits : (i.request c).operand < 65536 := (i.index c).isLt
    exact encodeRequest_eq_some.mpr
      ⟨⟨category_cmdName i, fits⟩, ⟨i, by rw [word_request, decode_encode hc hw]⟩, word_request c i⟩

end Sys2Proof.Proofs
end

section
/-! The refusals of a comm record that reaches a ready bridge (41_comm_commands.md R170, R176, 60_exceptions.md
R333). -/

namespace Sys2Proof.Proofs

open Sys2Proof.Machine Sys2Proof.Laws

/-- The refusal of the options of a comm record, in the order of the tests (R170, R333). -/
def optionRefusal (o : CommOpts) : Option Refusal :=
  if !o.im then some .notImmediate
  else if o.ac then some .afterCompletion
  else if o.spu && o.ra then some .pullUpWithReset
  else none

theorem ready_iff {b : Brg} : b.ready = true ↔ b.fault = .none ∧ b.outstanding = false := by
  simp [Brg.ready]

theorem acceptComm_refused {o : CommOpts} {i : Instr} {s : State} {r : Refusal}
    (ready : s.brg.ready = true) (h : optionRefusal o = some r) : acceptComm o i s = .refused r := by
  obtain ⟨sound, free⟩ := ready_iff.mp ready
  rw [acceptComm, ifSound_none sound, free]
  unfold optionRefusal at h
  split_ifs at h <;> cases h <;> simp [*]

/-- A search access tests the options as every comm record does, and is refused where those would be
accepted (R176). -/
theorem search_refused {o : CommOpts} {index : Half} {s : State} (ready : s.brg.ready = true) :
    exec (.commSearchAccess o index) s = .refused ((optionRefusal o).getD .searchAccess) := by
  obtain ⟨sound, free⟩ := ready_iff.mp ready
  rw [exec, execCommSearchAccess, ifSound_none sound, free, optionRefusal]
  cases o.im <;> cases o.ac <;> cases (o.spu && o.ra) <;> rfl

theorem exec_refused {i : Instr} {s : State} {r : Refusal} (hi : i.category = .comm)
    (ready : s.brg.ready = true) (h : optionRefusal i.optsB3.1 = some r) : exec i s = .refused r := by
  cases hs : isSearch i with
  | false => rw [exec_of_comm hi hs, acceptComm_refused ready h]
  | true =>
    cases i <;> simp only [isSearch, Bool.false_eq_true] at hs
    case commSearchAccess o index =>
      rw [search_refused ready, show optionRefusal o = some r from h, Option.getD_some]

theorem optionRefusal_eq_none {o : CommOpts} (h : o.executable = true) : optionRefusal o = none := by
  simp_all [CommOpts.executable, optionRefusal, imp_iff_not_or]

/-- Settles O15: the options are tested before anything of the command, and then a search access is refused
for itself. -/
theorem refusedForms : Obligations.RefusedForms := by
  refine ⟨fun i o s form ready => ?_, fun o index s ready => ⟨fun ex => ?_, fun t => ?_⟩⟩
  · have comm : i.category = .comm ∧ i.optsB3.1 = o := by
      obtain ⟨_, _, rfl⟩ | ⟨_, rfl⟩ | ⟨_, rfl⟩ | ⟨_, _, rfl⟩ | ⟨_, rfl⟩ | ⟨_, rfl⟩ | ⟨_, rfl⟩ := form <;>
        exact ⟨rfl, rfl⟩
    obtain ⟨hi, rfl⟩ := comm
    refine ⟨fun im => ?_, fun im ac => ?_, fun im ac spu ra => ?_⟩ <;>
      exact exec_refused hi ready (by simp [optionRefusal, *])
  · rw [search_refused ready, optionRefusal_eq_none ex, Option.getD_none]
  · rw [search_refused ready]
    exact nofun

end Sys2Proof.Proofs
end

section
/-! The control commands (40_control_commands.md): what each does to the registers of the bridge, and the frame
of an accepted record. -/

namespace Sys2Proof.Proofs

open Sys2Proof.Machine Sys2Proof.Laws

/-! ### The device reset (R151) -/

/-- After a device reset no pulse runs, nothing is halted or outstanding, and no power-on is reported. -/
theorem statusFlags_deviceReset (s : State) :
    statusFlags (deviceReset s) =
      s.cfg.flags.idle ||| flagIf s.vppIn s.cfg.flags.v12p ||| flagIf s.pmodIn s.cfg.flags.pmod := by
  have quiet : statusFlags (deviceReset s) =
      0#8 ||| 0#8 ||| flagIf s.vppIn s.cfg.flags.v12p ||| flagIf s.pmodIn s.cfg.flags.pmod ||| 0#8 |||
        s.cfg.flags.idle ||| 0#8 := rfl
  rw [quiet, BitVec.or_zero, BitVec.or_zero, BitVec.or_zero, BitVec.zero_or, BitVec.or_comm, BitVec.or_assoc]

/-- Settles O7: a power-on of the bridge with `EPOF` clear; sent by the sequencer it is the record's meaning and
then an empty `rtail`. -/
theorem resetDevice : Obligations.ResetDevice := by
  refine ⟨fun s => ⟨deviceReset s, _, _, _, _, _, _, rfl, rfl, statusFlags_deviceReset s⟩,
    fun s rest w hp hd => ?_⟩
  obtain ⟨sent, -, -⟩ := sequencerRunsRecord s _ _ w rest _ hp hd rfl rfl
  exact ⟨_, sent, rfl, rfl, rfl⟩

/-! ### The halt (R152) -/

theorem exec_halt_off {s : State} (sound : s.brg.fault = .none) (off : s.brg.pulse = .off) :
    exec .ctlHaltExe s = .next { s with brg := { s.brg with halt := true } } := by
  rw [exec, execCtlHaltExe, ifSound_none sound]
  simp only [off]

theorem exec_halt_pulse {s : State} (sound : s.brg.fault = .none) (on : s.brg.pulse ≠ .off) :
    exec .ctlHaltExe s =
      .next (execCtlHaltExe.haltPulse { s with brg := { s.brg with halt := true } }) := by
  rw [exec, execCtlHaltExe, ifSound_none sound]
  cases hp : s.brg.pulse with
  | off => exact absurd hp on
  | spu left => simp only [hp]
  | prg left => simp only [hp]

theorem haltPulse_commPulse {s : State} {o : CommOpts} {type : PulseKind} (busy : s.brg.exec = .busy)
    (cur : s.brg.cur = some (.commPulse o type)) :
    execCtlHaltExe.haltPulse s = completeCommand 0x00#8 { s with brg := { s.brg with pulse := .off } } := by
  simp only [execCtlHaltExe.haltPulse, busy, cur]

theorem haltPulse_other {s : State}
    (other : ∀ o type, ¬(s.brg.exec = .busy ∧ s.brg.cur = some (.commPulse o type))) :
    execCtlHaltExe.haltPulse s = { s with brg := { s.brg with pulse := .off } } := by
  unfold execCtlHaltExe.haltPulse
  dsimp only
  split
  next busy cur => exact absurd ⟨busy, cur⟩ (other _ _)
  next => rfl

theorem brgStep_halted {s : State} (sound : s.brg.fault = .none) (halted : s.brg.halt = true)
    (idle : s.brg.exec = .idle) : brgStep s = .next s := by
  simp [brgStep, sound, halted, idle]

/-- Settles O8: with no pulse, with the pulse of a `COMM_PULSE`, with any other pulse, and the halted engine. -/
theorem haltExe : Obligations.HaltExe := by
  refine ⟨fun _ => exec_halt_off, fun s o type sound on busy cur => ?_, fun s sound on other => ?_,
    fun _ => brgStep_halted⟩ <;> rw [exec_halt_pulse sound on]
  · rw [haltPulse_commPulse (s := { s with brg := { s.brg with halt := true } }) busy cur]
    rfl
  · rw [haltPulse_other (s := { s with brg := { s.brg with halt := true } }) other]

/-! ### The resume (R153) -/

theorem exec_resume {s : State} (sound : s.brg.fault = .none) :
    exec .ctlResumeExe s = .next { s with brg := { s.brg with halt := false } } := by
  rw [exec, execCtlResumeExe, ifSound_none sound]

/-- An idle engine that is not halted starts the record that waits (R170). -/
theorem brgStep_start {s : State} {i : Instr} {rest : List Instr} (sound : s.brg.fault = .none)
    (idle : s.brg.exec = .idle) (running : s.brg.halt = false) (waiting : s.brg.cbuf = i :: rest) :
    brgStep s = .next (startCommand i { s with brg := { s.brg with cbuf := rest } }) := by
  simp [brgStep, sound, idle, running, waiting]

/-- Settles O9: the resume itself, then the engine's start of the waiting record. -/
theorem resumeExe : Obligations.ResumeExe := by
  refine ⟨fun _ => exec_resume, fun s c rest sound idle waiting => ?_⟩
  have start := brgStep_start (s := { s with brg := { s.brg with halt := false } }) sound idle rfl waiting
  rw [runComm, exec_resume sound, andThen_next, brgSteps, start]
  rfl

/-! ### The flushes (R154 to R156) -/

theorem exec_flush_free {i : Instr} {s : State} (hi : isFlush i = true) (sound : s.brg.fault = .none)
    (free : flushBlocked s = false) : exec i s = .next { s with brg := flushWrite i s.brg } := by
  rw [exec_of_flush hi]
  exact acceptFlush_eq_next.mpr ⟨sound, .inr ⟨free, rfl⟩⟩

theorem exec_flush_blocked {i : Instr} {s : State} (hi : isFlush i = true) (sound : s.brg.fault = .none)
    (blocked : flushBlocked s = true) : exec i s = .next (setDesync s) := by
  rw [exec_of_flush hi]
  exact acceptFlush_eq_next.mpr ⟨sound, .inl ⟨blocked, rfl⟩⟩

/-- Settles O10: whether a flush is blocked is one condition, the same for the three. -/
theorem flushes : Obligations.Flushes := by
  intro s sound
  refine ⟨fun idle waits => ?_, fun blocks i hi => ?_⟩
  · have free : flushBlocked s = false := flushBlocked_eq_false.mpr ⟨idle, waits⟩
    exact ⟨exec_flush_free rfl sound free, exec_flush_free rfl sound free, exec_flush_free rfl sound free⟩
  · have blocked : flushBlocked s = true := flushBlocked_eq_true.mpr blocks
    obtain rfl | rfl | rfl := hi <;> exact exec_flush_blocked rfl sound blocked

/-! ### The frame of acceptance (R150, R170, R200) -/

/-- A flush writes nothing but the buffer it names. -/
theorem flushWrite_frame (i : Instr) (b : Brg) :
    ∃ cbuf rbuf wbuf, flushWrite i b = { b with cbuf := cbuf, rbuf := rbuf, wbuf := wbuf } ∧
      (i ≠ .ctlFlushComm → cbuf = b.cbuf) ∧ (i ≠ .ctlFlushRead → rbuf = b.rbuf) ∧
      (i ≠ .ctlFlushWrite → wbuf = b.wbuf) := by
  cases i <;> exact ⟨_, _, _, rfl, by simp⟩

/-- A mode record writes nothing but the register it names. -/
theorem modeWrite_frame (c : Config) (i : Instr) (b : Brg) :
    ∃ en speed spud ppd slew tp0 tp1, modeWrite c i b =
        { b with en := en, speed := speed, spud := spud, ppd := ppd, slew := slew, tp0 := tp0, tp1 := tp1 } ∧
      ((∀ u v, i ≠ .modePulseEn u v) → (∀ v, i ≠ .modeSpeedChangeEn v) → en = b.en) ∧
      ((∀ v, i ≠ .modeBusSpeed v) → speed = b.speed) ∧
      ((∀ v, i ≠ .modePullupDuration v) → spud = b.spud) ∧
      ((∀ v, i ≠ .modePulseDuration v) → ppd = b.ppd) ∧ ((∀ v, i ≠ .modeSlewRate v) → slew = b.slew) ∧
      ((∀ v, i ≠ .modeTiming0 v) → tp0 = b.tp0) ∧ ((∀ v, i ≠ .modeTiming1 v) → tp1 = b.tp1) := by
  cases i <;> exact ⟨_, _, _, _, _, _, _, rfl, by simp⟩

/-- Settles O27: in each way of accepting a record, the registers it does not write are as they were. -/
theorem acceptanceFrame : Obligations.AcceptanceFrame := by
  intro i s t h
  refine ⟨by rw [exec_frame h]; simp only [and_self], fun hi => ?_⟩
  cases accepted_of_exec h with
  | reset => exact absurd rfl hi
  | hazard _ out => simp [setDesync, out]
  | resume | halt | haltPulse | haltCommand => simp
  | flush =>
    obtain ⟨cbuf, rbuf, wbuf, hw, comm, read, write⟩ := flushWrite_frame i s.brg
    simpa [hw] using ⟨read, write, fun hc _ => comm hc⟩
  | wait _ _ is => simp [is]
  | start _ _ is _ _ running => simp [is, running]
  | mode _ _ is =>
    obtain ⟨en, speed, spud, ppd, slew, tp0, tp1, hw, registers⟩ := modeWrite_frame s.cfg i s.brg
    simpa [hw] using registers

end Sys2Proof.Proofs
end

section
/-! A comm record on its way through the bridge (41_comm_commands.md R170): it starts or waits when it arrives,
and each stage of its execution is one step of the engine. -/

namespace Sys2Proof.Proofs

open Sys2Proof.Machine Sys2Proof.Laws

/-! ### Acceptance -/

/-- A record that the bridge can execute is a comm record, not a search access, with executable options. -/
theorem comm_of_runnable {c : Config} {i : Instr} (h : i.runnable c = true) :
    i.category = .comm ∧ isSearch i = false ∧ i.optsB3.1.executable = true := by
  cases i <;> simp_all [Instr.runnable, Instr.category, isSearch, Instr.optsB3]

section Accept

variable {i : Instr} {s : State} (hi : i.category = .comm) (hs : isSearch i = false)
  (ex : i.optsB3.1.executable = true) (ready : s.brg.ready = true)
include hi hs ex ready

/-- A comm record that meets a ready bridge starts, or waits while execution is halted. -/
theorem exec_comm_ready : exec i s = .next
    (if s.brg.halt then { s with brg := { s.brg with cbuf := [i] } } else startCommand i s) := by
  obtain ⟨sound, free⟩ := ready_iff.mp ready
  obtain ⟨-, empty⟩ := not_outstanding_iff.mp free
  simp only [CommOpts.executable, Bool.and_eq_true, Bool.not_eq_true'] at ex
  obtain ⟨⟨im, ac⟩, ep⟩ := ex
  rw [exec_of_comm hi hs]
  refine acceptComm_eq_next.mpr ⟨sound, .inr ⟨free, im, ac, ep, ?_⟩⟩
  cases halted : s.brg.halt <;> simp [empty]

theorem exec_start (running : s.brg.halt = false) : exec i s = .next (startCommand i s) := by
  rw [exec_comm_ready hi hs ex ready, running]
  rfl

theorem exec_wait (halted : s.brg.halt = true) :
    exec i s = .next { s with brg := { s.brg with cbuf := [i] } } := by
  rw [exec_comm_ready hi hs ex ready, halted]
  rfl

theorem runComm_eq_brgSteps (running : s.brg.halt = false) (n : Nat) :
    runComm i n s = brgSteps n (startCommand i s) := by
  rw [runComm, exec_start hi hs ex ready running, andThen_next]

end Accept

/-- Settles O14: the start at once, and the wait that a resume ends. -/
theorem commStarts : Obligations.CommStarts := by
  intro i s legal runnable ready
  obtain ⟨hi, hs, ex⟩ := comm_of_runnable runnable
  refine ⟨exec_start hi hs ex ready, fun halted => ?_⟩
  have waits := exec_wait hi hs ex ready halted
  refine ⟨waits, fun t ht => ?_, ?_⟩
  · cases waits.symm.trans ht
    rw [recordIdle_statusRecord (s := { s with brg := { s.brg with cbuf := [i] } }) legal]
    simp [Brg.outstanding]
  · obtain ⟨sound, free⟩ := ready_iff.mp ready
    obtain ⟨idle, -⟩ := not_outstanding_iff.mp free
    rw [waits, andThen_next]
    exact resumeExe.2 { s with brg := { s.brg with cbuf := [i] } } i [] sound idle rfl

/-! ### Steps of the engine -/

theorem brgSteps_one (s : State) : brgSteps 1 s = brgStep s := by
  rw [brgSteps]
  cases brgStep s <;> rfl

theorem brgSteps_add (m n : Nat) (s : State) : brgSteps (m + n) s = andThen (brgSteps m s) (brgSteps n) := by
  induction m generalizing s with
  | zero => rw [Nat.zero_add, brgSteps, andThen_next]
  | succ m ih =>
    rw [Nat.add_right_comm, brgSteps, brgSteps, andThen_assoc]
    exact congrArg _ (funext ih)

/-- The command `i` is in execution, at the stage `g` (R63, R170). -/
structure InStage (g : Stage) (i : Instr) (b : Brg) : Prop where
  sound : b.fault = .none
  busy : b.exec = .busy
  cur : b.cur = some i
  stage : b.stage = g

theorem inStage_startCommand {s : State} (ready : s.brg.ready = true) (i : Instr) :
    InStage .body i (startCommand i s).brg :=
  ⟨(ready_iff.mp ready).1, rfl, rfl, rfl⟩

section Stages

variable {i : Instr} {s : State}

theorem brgStep_body (h : InStage .body i s.brg) : brgStep s = bodyStep i s := by
  simp [brgStep, h.sound, h.busy, h.cur, h.stage]

theorem brgStep_resetAfter (h : InStage .resetAfter i s.brg) : brgStep s = .next (resetEpilogue i s) := by
  simp [brgStep, h.sound, h.busy, h.cur, h.stage]

theorem brgStep_pullUp (h : InStage .pullUp i s.brg) : brgStep s = .next (pullUpEpilogue s) := by
  simp [brgStep, h.sound, h.busy, h.cur, h.stage]

theorem brgStep_finish (h : InStage .finish i s.brg) : brgStep s = .next (completeCommand s.brg.res s) := by
  simp [brgStep, h.sound, h.busy, h.cur, h.stage]

/-- The first step after acceptance is a step of the command's body. -/
theorem runComm_one (hi : i.category = .comm) (hs : isSearch i = false) (ex : i.optsB3.1.executable = true)
    (ready : s.brg.ready = true) (running : s.brg.halt = false) :
    runComm i 1 s = bodyStep i (startCommand i s) := by
  rw [runComm_eq_brgSteps hi hs ex ready running, brgSteps_one, brgStep_body (inStage_startCommand ready i)]

end Stages

end Sys2Proof.Proofs
end

section
/-! The registers a step of the bridge engine keeps, and the result byte a completed command leaves
(41_comm_commands.md R170, R171). -/

namespace Sys2Proof.Proofs

open Sys2Proof.Machine Sys2Proof.Laws

/-! ### The trace of the WIRE -/

@[simp] theorem wireSlot_trace (b : Bool) (s : State) :
    (wireSlot b s).2.trace = .slot b (wireSlot b s).1 :: s.trace := by
  obtain ⟨w, d, h⟩ := wireSlot_frame b s
  rw [h]

@[simp] theorem wireReset_trace (s : State) :
    (wireReset s).2.trace = .wireReset s.brg.speed :: s.trace := by
  obtain ⟨w, d, h⟩ := wireReset_frame s
  rw [h]

/-- The older trace is the end of the newer one. -/
theorem shiftSlot_trace (s : State) : s.trace <:+ (shiftSlot s).trace := by
  simp [shiftSlot]

/-! ### Steps of a body -/

/-- The registers that neither a body nor an epilogue ever writes. -/
def engineFixed (b : Brg) : Byte × Byte × Byte × Bool × Bool × BrgFault :=
  (b.slew, b.tp0, b.tp1, b.halt, b.epof, b.fault)

/-- What a step of the command `i` leaves as it was, and how it may grow `RBUF` and the trace. -/
structure CommandKeeps (i : Instr) (s t : State) : Prop where
  fixed : engineFixed t.brg = engineFixed s.brg
  kept : kept t.brg = kept s.brg
  speed : (∀ o v, i ≠ .commOnewireReset o true v) → t.brg.speed = s.brg.speed
  durations : (∀ o type code, i ≠ .commSetDuration o type code) →
    t.brg.spud = s.brg.spud ∧ t.brg.ppd = s.brg.ppd
  wbuf : (∀ o n, i ≠ .commBlockIo o n) → t.brg.wbuf = s.brg.wbuf
  rbuf : t.brg.rbuf = s.brg.rbuf ∨ ∃ e, t.brg.rbuf = s.brg.rbuf ++ [e]
  trace : s.trace <:+ t.trace

theorem CommandKeeps.refl (i : Instr) (s : State) : CommandKeeps i s s :=
  ⟨rfl, rfl, fun _ => rfl, fun _ => ⟨rfl, rfl⟩, fun _ => rfl, .inl rfl, List.suffix_rfl⟩

theorem commandKeeps_beginPullUp (i : Instr) (s : State) : CommandKeeps i s (beginPullUp s) :=
  { CommandKeeps.refl i s with trace := List.suffix_cons _ _ }

theorem commandKeeps_beginProgram (i : Instr) (s : State) : CommandKeeps i s (beginProgram s) :=
  { CommandKeeps.refl i s with trace := List.suffix_cons _ _ }

theorem commandKeeps_bitIo {o : CommOpts} {d : Bool} {s t : State} (h : bodyCommBitIo o d s = .next t) :
    CommandKeeps (.commBitIo o d) s t := by
  obtain ⟨-, rfl⟩ := bodyCommBitIo_eq_next.mp h
  exact { CommandKeeps.refl _ s with
    rbuf := .inr ⟨_, rfl⟩
    trace := by simp [afterBody] }

theorem commandKeeps_onewireReset {o : CommOpts} {se : Bool} {speed : Byte} {s t : State}
    (h : bodyCommOnewireReset o se speed s = .next t) :
    CommandKeeps (.commOnewireReset o se speed) s t := by
  cases se <;> cases h <;> constructor <;> simp [afterBody, engineFixed, kept]

/-- Slots of a byte command. -/
theorem commandKeeps_byteIo {o : CommOpts} {x : Byte} {s t : State} (h : bodyCommByteIo o x s = .next t) :
    CommandKeeps (.commByteIo o x) s t := by
  have brg := shiftSlot_brg { s with brg := { s.brg with x := x } }
  have trace : s.trace <:+ _ := shiftSlot_trace { s with brg := { s.brg with x := x } }
  obtain ⟨-, rfl⟩ | ⟨-, -, rfl⟩ := bodyCommByteIo_next h rfl
  all_goals constructor <;> simp [afterBody, engineFixed, kept, brg, trace]

/-- Slots of a block command, whose byte may just have left `WBUF`. -/
theorem commandKeeps_blockSlot {o : CommOpts} {n : Half} {s l t : State}
    (hl : ∃ x wbuf, l = { s with brg := { s.brg with x := x, wbuf := wbuf } })
    (h : BlockSlot o n (shiftSlot l) t) : CommandKeeps (.commBlockIo o n) s t := by
  obtain ⟨x, wbuf, rfl⟩ := hl
  have brg := shiftSlot_brg { s with brg := { s.brg with x := x, wbuf := wbuf } }
  have trace : s.trace <:+ _ := shiftSlot_trace { s with brg := { s.brg with x := x, wbuf := wbuf } }
  obtain ⟨-, rfl⟩ | ⟨-, -, v, rfl, ⟨-, rfl⟩ | ⟨-, rfl⟩⟩ := h
  all_goals constructor <;> simp [afterBody, engineFixed, kept, brg, trace]

theorem commandKeeps_bodyStep {i : Instr} {s t : State} (h : bodyStep i s = .next t) :
    CommandKeeps i s t := by
  cases i
  case commSetDuration o type code =>
    cases type <;> cases h <;>
      exact { CommandKeeps.refl _ s with durations := fun other => absurd rfl (other _ _ _) }
  case commBitIo o d => exact commandKeeps_bitIo h
  case commPulse o type =>
    obtain rfl | rfl | rfl | rfl := bodyCommPulse_next h
    · exact { CommandKeeps.refl _ s with }
    · exact { CommandKeeps.refl _ s with }
    · exact commandKeeps_beginPullUp _ s
    · exact commandKeeps_beginProgram _ s
  case commOnewireReset o se speed => exact commandKeeps_onewireReset h
  case commByteIo o x => exact commandKeeps_byteIo h
  case commBlockIo o n =>
    obtain ⟨-, ⟨-, x, rest, -, h⟩ | ⟨-, h⟩⟩ := bodyCommBlockIo_next h
    · exact commandKeeps_blockSlot ⟨x, rest, rfl⟩ h
    · exact commandKeeps_blockSlot ⟨s.brg.x, s.brg.wbuf, rfl⟩ h
  all_goals cases h; exact CommandKeeps.refl _ s

/-! ### Steps of the engine -/

theorem commandKeeps_resetEpilogue (i : Instr) (s : State) : CommandKeeps i s (resetEpilogue i s) := by
  constructor <;> simp [resetEpilogue, engineFixed, kept]

theorem commandKeeps_pullUpEpilogue (i : Instr) (s : State) : CommandKeeps i s (pullUpEpilogue s) := by
  unfold pullUpEpilogue
  split_ifs
  · exact commandKeeps_beginPullUp i s
  · exact { CommandKeeps.refl i s with }

/-- A step of the engine rests, starts a waiting command, goes on with the command in execution, or completes
it. -/
theorem engineStep_cases {s t : State} (h : EngineStep s t) :
    t = s ∨
    (∃ i rest, s.brg.exec = .idle ∧ t = startCommand i { s with brg := { s.brg with cbuf := rest } }) ∨
    (∃ i, s.brg.exec = .busy ∧ s.brg.cur = some i ∧ CommandKeeps i s t) ∨
    ∃ pulse, s.brg.exec = .busy ∧
      t = completeCommand s.brg.res { s with brg := { s.brg with pulse := pulse } } := by
  cases h with
  | rest => exact .inl rfl
  | @start i rest idle => exact .inr (.inl ⟨i, rest, idle, rfl⟩)
  | @body i _ busy cur _ step => exact .inr (.inr (.inl ⟨i, busy, cur, commandKeeps_bodyStep step⟩))
  | @resetAfter i busy cur => exact .inr (.inr (.inl ⟨i, busy, cur, commandKeeps_resetEpilogue i s⟩))
  | @pullUp i busy cur => exact .inr (.inr (.inl ⟨i, busy, cur, commandKeeps_pullUpEpilogue i s⟩))
  | pulseOver busy => exact .inr (.inr (.inr ⟨.off, busy, rfl⟩))
  | finish busy => exact .inr (.inr (.inr ⟨s.brg.pulse, busy, rfl⟩))

/-- Settles O25: only a completion adds a result byte; what else the engine does leaves it busy. -/
theorem oneResultPerCommand : Obligations.OneResultPerCommand := by
  refine ⟨fun s t h => ?_, fun s t h => ?_⟩
  · obtain rfl | ⟨i, rest, idle, rfl⟩ | ⟨i, busy, -, keeps⟩ | ⟨pulse, busy, rfl⟩ :=
      engineStep_cases (engineStep_of_brgStep h).2
    · exact .inr ⟨rfl, id⟩
    · exact .inr ⟨rfl, fun _ => rfl⟩
    · have kept := keeps.kept
      simp only [Proofs.kept, Prod.mk.injEq] at kept
      obtain ⟨-, -, resq, exec, -⟩ := kept
      exact .inr ⟨resq, fun _ => exec.trans busy⟩
    · exact .inl ⟨busy, rfl, rfl⟩
  · cases h
    exact ⟨rfl, rfl⟩

/-- Settles O28: beside the bridge only the WIRE changes, and in the bridge only what the command in execution
writes. -/
theorem engineFrame : Obligations.EngineFrame := by
  intro s t h
  have step := (engineStep_of_brgStep h).2
  have frame := engineStep_frame step
  suffices bridge : t.brg.en = s.brg.en ∧ engineFixed t.brg = engineFixed s.brg ∧
      ((∀ o v, s.brg.cur ≠ some (.commOnewireReset o true v)) → t.brg.speed = s.brg.speed) ∧
      ((∀ o type c, s.brg.cur ≠ some (.commSetDuration o type c)) →
        t.brg.spud = s.brg.spud ∧ t.brg.ppd = s.brg.ppd) ∧
      ((∀ o n, s.brg.cur ≠ some (.commBlockIo o n)) → t.brg.wbuf = s.brg.wbuf) ∧
      (t.brg.rbuf = s.brg.rbuf ∨ ∃ e, t.brg.rbuf = s.brg.rbuf ++ [e]) ∧ s.trace <:+ t.trace by
    obtain ⟨en, hf, speed, durations, wbuf, rbuf, evs, trace⟩ := bridge
    simp only [engineFixed, Prod.mk.injEq] at hf
    obtain ⟨slew, tp0, tp1, halt, epof, fault⟩ := hf
    refine ⟨?_, ?_, ?_, ?_, ?_, ?_, ?_, en, slew, tp0, tp1, halt, epof, fault, speed, durations, wbuf, rbuf,
      evs, trace.symm⟩ <;> rw [frame]
  obtain rfl | ⟨i, rest, idle, rfl⟩ | ⟨i, busy, cur, keeps⟩ | ⟨pulse, busy, rfl⟩ :=
    engineStep_cases step
  case inr.inr.inl =>
    have kept := keeps.kept
    simp only [Proofs.kept, Prod.mk.injEq] at kept
    simp only [cur, ne_eq, Option.some.injEq]
    exact ⟨kept.1, keeps.fixed, keeps.speed, keeps.durations, keeps.wbuf, keeps.rbuf, keeps.trace⟩
  all_goals simp [engineFixed]

end Sys2Proof.Proofs
end

section
/-! Bits and bytes on the WIRE (20_memory.md R83, 41_comm_commands.md R174): the levels a byte's slots answer,
and the byte echoed. -/

namespace Sys2Proof.Proofs

open Sys2Proof.Machine Sys2Proof.Laws

/-! ### Bits of a byte -/

theorem getLsbD_setBit {w : Nat} (v : BitVec w) (i j : Nat) (b : Bool) (hj : j < w) :
    (setBit v i b).getLsbD j = if j = i then b else v.getLsbD j := by
  have one : (1#w <<< i).getLsbD j = decide (j = i) := by
    rw [← BitVec.twoPow_eq, BitVec.getLsbD_twoPow, Bool.eq_iff_iff]
    simp only [Bool.and_eq_true, decide_eq_true_eq]
    omega
  cases b
  · rw [setBit, if_neg Bool.false_ne_true, BitVec.getLsbD_and, BitVec.getLsbD_not, one]
    by_cases h : j = i <;> simp [h, hj]
  · rw [setBit, if_pos rfl, BitVec.getLsbD_or, one]
    by_cases h : j = i <;> simp [h]

theorem getLsbD_bitsByte (bs : List Bool) (i : Nat) (hi : i < 8) :
    (bitsByte bs).getLsbD i = bs.getD i false := by
  induction bs generalizing i with
  | nil => simp [bitsByte]
  | cons b bs ih =>
    rw [bitsByte, getLsbD_setBit _ _ _ _ hi]
    cases i with
    | zero => simp
    | succ i =>
      rw [List.getD_cons_succ, ← ih i (by omega)]
      simp [hi, BitVec.getLsbD_eq_getElem (show i < 8 by omega)]

@[simp] theorem length_byteBits (x : Byte) : (byteBits x).length = 8 := by
  simp [byteBits]

theorem getD_byteBits (x : Byte) (i : Nat) (hi : i < 8) : (byteBits x).getD i false = x.getLsbD i := by
  simp [byteBits, hi]

theorem bitsByte_byteBits (x : Byte) : bitsByte (byteBits x) = x := by
  apply BitVec.eq_of_getLsbD_eq
  intro i hi
  rw [getLsbD_bitsByte _ _ hi, getD_byteBits x i hi]

/-- Eight bits are those of the byte they make. -/
theorem byteBits_bitsByte {bs : List Bool} (h : bs.length = 8) : byteBits (bitsByte bs) = bs := by
  apply List.ext_getElem
  · rw [length_byteBits, h]
  · intro i _ hi
    have := getLsbD_bitsByte bs i (h ▸ hi)
    simpa [byteBits, hi] using this

/-! ### Slots -/

/-- A slot that writes 0 answers 0 (R37). -/
theorem wireSlot_of_false (s : State) : (wireSlot false s).1 = false := by
  simp only [wireSlot, wireLevel]
  split
  · simp [RefBus.slot, RefBus.level]
  · rfl

@[simp] theorem length_sendBits (bs : List Bool) (s : State) : (sendBits bs s).1.length = bs.length := by
  induction bs generalizing s with
  | nil => rfl
  | cons b bs ih => exact congrArg (· + 1) (ih _)

/-- A slot answers 1 only where it wrote 1. -/
theorem bit_of_level {bs : List Bool} {s : State} {i : Nat} (h : (sendBits bs s).1.getD i false = true) :
    bs.getD i false = true := by
  induction bs generalizing s i with
  | nil => exact h
  | cons b bs ih =>
    cases i with
    | zero =>
      cases b
      · exact (wireSlot_of_false s).symm.trans h
      · rfl
    | succ i => exact ih h

/-- A bit of the echo is 1 only where the byte's is. -/
theorem bit_of_echo {x : Byte} {s : State} {i : Nat} (hi : i < 8) (h : (sendByte x s).1.getLsbD i = true) :
    x.getLsbD i = true := by
  rw [sendByte, getLsbD_bitsByte _ _ hi] at h
  rw [← getD_byteBits x i hi]
  exact bit_of_level h

/-- Settles O26: bit by bit for the first part; for the second, eight levels are the bits of the byte they
make. -/
theorem echoOnlyLosesBits : Obligations.EchoOnlyLosesBits := by
  intro x s
  have length : (sendBits (byteBits x) s).1.length = 8 := by simp
  refine ⟨?_, fun same => ?_, fun same => ?_⟩
  · apply BitVec.eq_of_getLsbD_eq
    intro i hi
    rw [BitVec.getLsbD_and, BitVec.getLsbD_not, BitVec.getLsbD_zero]
    cases echo : (sendByte x s).1.getLsbD i with
    | false => rfl
    | true => simp [bit_of_echo hi echo]
  · rw [← byteBits_bitsByte length]
    exact congrArg byteBits same
  · exact (congrArg bitsByte same).trans (bitsByte_byteBits x)

/-! ### The registers of the bridge and the WIRE -/

theorem wireLevel_setBrg (b : Bool) (s : State) (r : Brg) :
    wireLevel b { s with brg := r } = ((wireLevel b s).1, { (wireLevel b s).2 with brg := r }) := by
  simp only [wireLevel]
  split
  · rfl
  · split
    · split <;> rfl
    · rfl

/-- What a slot does does not depend on the registers of the bridge. -/
theorem wireSlot_setBrg (b : Bool) (s : State) (r : Brg) :
    wireSlot b { s with brg := r } = ((wireSlot b s).1, { (wireSlot b s).2 with brg := r }) := by
  simp only [wireSlot, wireLevel_setBrg]
  rfl

/-- The start of a command changes nothing on the WIRE. -/
theorem wireSlot_startCommand (b : Bool) (i : Instr) (s : State) :
    wireSlot b (startCommand i s) =
      ((wireSlot b s).1, { (wireSlot b s).2 with brg := (startCommand i s).brg }) :=
  wireSlot_setBrg b s _

/-- A reset cycle reads the speed register and no other (R37). -/
theorem wireReset_setBrg (s : State) (r : Brg) :
    wireReset { s with brg := r } = ((wireReset s).1,
      { (wireReset s).2 with brg := r, trace := .wireReset r.speed :: s.trace }) := by
  simp only [wireReset, log_wire]
  split <;> rfl

theorem wireReset_startCommand (i : Instr) (s : State) :
    wireReset (startCommand i s) =
      ((wireReset s).1, { (wireReset s).2 with brg := (startCommand i s).brg }) := by
  rw [startCommand, wireReset_setBrg s, ← wireReset_trace]

theorem sendBits_setBrg (bs : List Bool) (s : State) (r : Brg) :
    sendBits bs { s with brg := r } = ((sendBits bs s).1, { (sendBits bs s).2 with brg := r }) := by
  induction bs generalizing s with
  | nil => rfl
  | cons b bs ih => simp only [sendBits, wireSlot_setBrg, ih]

theorem sendByte_setBrg (x : Byte) (s : State) (r : Brg) :
    sendByte x { s with brg := r } = ((sendByte x s).1, { (sendByte x s).2 with brg := r }) := by
  simp only [sendByte, sendBits_setBrg]

theorem sendByte_startCommand (x : Byte) (i : Instr) (s : State) :
    sendByte x (startCommand i s) =
      ((sendByte x s).1, { (sendByte x s).2 with brg := (startCommand i s).brg }) :=
  sendByte_setBrg x s _

theorem sendBits_cfg (bs : List Bool) (s : State) : (sendBits bs s).2.cfg = s.cfg := by
  induction bs generalizing s with
  | nil => rfl
  | cons b bs ih => exact (ih _).trans (wireSlot_cfg b s)

@[simp] theorem sendByte_cfg (x : Byte) (s : State) : (sendByte x s).2.cfg = s.cfg :=
  sendBits_cfg _ s

theorem sendBytes_setBrg (xs : List Byte) (s : State) (r : Brg) :
    sendBytes xs { s with brg := r } = ((sendBytes xs s).1, { (sendBytes xs s).2 with brg := r }) := by
  induction xs generalizing s with
  | nil => rfl
  | cons x xs ih => simp only [sendBytes, sendByte_setBrg, ih]

theorem sendBytes_startCommand (xs : List Byte) (i : Instr) (s : State) :
    sendBytes xs (startCommand i s) =
      ((sendBytes xs s).1, { (sendBytes xs s).2 with brg := (startCommand i s).brg }) :=
  sendBytes_setBrg xs s _

/-! ### The slots of a byte, as the engine makes them -/

/-- The echo `e` after these levels have been put in its bits from bit `k` on. -/
def echoFrom (e : Byte) (k : Nat) : List Bool → Byte
  | [] => e
  | r :: rs => echoFrom (setBit e k r) (k + 1) rs

theorem getLsbD_echoFrom (rs : List Bool) (e : Byte) (k i : Nat) (hi : i < 8) :
    (echoFrom e k rs).getLsbD i = if k ≤ i then rs.getD (i - k) (e.getLsbD i) else e.getLsbD i := by
  induction rs generalizing e k with
  | nil => simp [echoFrom]
  | cons r rs ih =>
    rw [echoFrom, ih, getLsbD_setBit _ _ _ _ hi]
    rcases Nat.lt_trichotomy k i with h | rfl | h
    · obtain ⟨d, rfl⟩ := Nat.exists_eq_add_of_lt h
      simp [show k + d + 1 - (k + 1) = d by omega, show k + d + 1 - k = d + 1 by omega,
        show ¬ k + d + 1 = k by omega, show k ≤ k + d + 1 by omega]
    · simp
    · simp [show ¬ k + 1 ≤ i by omega, show ¬ k ≤ i by omega, show ¬ i = k by omega]

theorem echoFrom_zero (rs : List Bool) : echoFrom 0#8 0 rs = bitsByte rs := by
  apply BitVec.eq_of_getLsbD_eq
  intro i hi
  simp [getLsbD_echoFrom _ _ _ _ hi, getLsbD_bitsByte _ _ hi]

/-- The bits of `x` from bit `k` on, `n` of them. -/
def bitsFrom (x : Byte) (k n : Nat) : List Bool := (List.range' k n).map x.getLsbD

/-- Slots of the byte in `BRG.x`, one after the other, from bit `BRG.k` on. -/
theorem shiftSlot_iterate (n : Nat) (s : State) :
    shiftSlot^[n] s =
      { (sendBits (bitsFrom s.brg.x s.brg.k n) s).2 with
        brg := { s.brg with
          e := echoFrom s.brg.e s.brg.k (sendBits (bitsFrom s.brg.x s.brg.k n) s).1, k := s.brg.k + n } } := by
  induction n generalizing s with
  | zero => rfl
  | succ n ih =>
    have slot : shiftSlot s =
        { (wireSlot (s.brg.x.getLsbD s.brg.k) s).2 with brg := (shiftSlot s).brg } := rfl
    rw [Function.iterate_succ_apply, ih, slot, sendBits_setBrg, shiftSlot_brg]
    simp only [bitsFrom, List.range'_succ, List.map_cons, sendBits, echoFrom, Nat.add_assoc, Nat.add_comm 1]

/-- Eight slots from the first send the byte. -/
theorem shiftSlot_eight {s : State} (hk : s.brg.k = 0) (he : s.brg.e = 0#8) :
    shiftSlot^[8] s =
      { (sendByte s.brg.x s).2 with brg := { s.brg with e := (sendByte s.brg.x s).1, k := 8 } } := by
  have bits : bitsFrom s.brg.x 0 8 = byteBits s.brg.x := by
    rw [bitsFrom, byteBits, List.range_eq_range']
  rw [shiftSlot_iterate, hk, he, bits, echoFrom_zero]
  rfl

end Sys2Proof.Proofs
end

section
/-! The commands that move data over the WIRE (41_comm_commands.md R173 to R175): a bit, a byte in eight slots,
a block byte by byte. -/

namespace Sys2Proof.Proofs

open Sys2Proof.Machine Sys2Proof.Laws

/-! ### Room in `RBUF` -/

theorem endByte_of_room {s : State} (room : s.brg.rbuf.length < s.cfg.bufCap) (k : State → Out) :
    endByte s k = k { s with brg := { s.brg with k := 0, e := 0#8, rbuf := s.brg.rbuf ++ [s.brg.e] } } :=
  if_pos room

theorem endByte_of_full {s : State} (full : s.brg.rbuf.length = s.cfg.bufCap) (k : State → Out) :
    endByte s k = .refused .readBufferFull :=
  if_neg (Nat.not_lt.mpr (Nat.le_of_eq full.symm))

/-! ### The bit command (R173) -/

theorem setBit_zero (r : Bool) : setBit (0#8) 0 r = if r then 0x01#8 else 0x00#8 := by
  cases r <;> rfl

theorem bodyCommBitIo_of_full {o : CommOpts} {d : Bool} {s : State}
    (full : s.brg.rbuf.length = s.cfg.bufCap) : bodyCommBitIo o d s = .refused .readBufferFull := by
  simp [bodyCommBitIo, pushRead, full]

/-- Settles O18: the slot's level is bit 0 of the byte appended. -/
theorem bitIoBody : Obligations.BitIoBody := by
  intro o d r s u ex ready running room slot
  obtain ⟨rfl, rfl⟩ := Prod.ext_iff.mp slot
  rw [runComm_one (i := .commBitIo o d) rfl rfl ex ready running]
  refine (bodyCommBitIo_eq_next (s := startCommand _ s)).mpr ⟨room, ?_⟩
  rw [wireSlot_startCommand, setBit_zero]
  rfl

/-! ### Eight slots -/

/-- A slot of a byte has been made: after the eighth the command goes on with `last`. -/
def afterSlot (last : State → Out) (u : State) : Out := if u.brg.k = 8 then last u else .next u

theorem bodyCommByteIo_eq (o : CommOpts) (x : Byte) (s : State) :
    bodyCommByteIo o x s = afterSlot (fun u => endByte u fun t => .next (afterBody o t))
      (shiftSlot { s with brg := { s.brg with x := x } }) := rfl

@[simp] theorem shiftSlot_k (s : State) : (shiftSlot s).brg.k = s.brg.k + 1 := by rw [shiftSlot_brg]

@[simp] theorem shiftSlot_x (s : State) : (shiftSlot s).brg.x = s.brg.x := by rw [shiftSlot_brg]

theorem inStage_shiftSlot {g : Stage} {i : Instr} {s : State} (h : InStage g i s.brg) :
    InStage g i (shiftSlot s).brg := by
  rw [shiftSlot_brg]
  exact ⟨h.sound, h.busy, h.cur, h.stage⟩

section Slots

variable {i : Instr} {x : Byte} {last : State → Out}
  (slots : ∀ s : State, s.brg.x = x → s.brg.k ≠ 0 → bodyStep i s = afterSlot last (shiftSlot s))
include slots

/-- The slots of a byte after the first, whatever the command does with the byte echoed. -/
theorem brgSteps_slots (n : Nat) (s : State) (h : InStage .body i s.brg) (hx : s.brg.x = x)
    (hk : s.brg.k ≠ 0) (eighth : s.brg.k + n + 1 = 8) : brgSteps (n + 1) s = last (shiftSlot^[n + 1] s) := by
  induction n generalizing s with
  | zero =>
    rw [brgSteps_one, brgStep_body h, slots s hx hk, afterSlot, shiftSlot_k, if_pos (by omega)]
    rfl
  | succ n ih =>
    rw [brgSteps, brgStep_body h, slots s hx hk, afterSlot, shiftSlot_k, if_neg (by omega), andThen_next,
      Function.iterate_succ_apply]
    exact ih _ (inStage_shiftSlot h) ((shiftSlot_x s).trans hx) (by simp) (by rw [shiftSlot_k]; omega)

/-- All eight slots of a byte, `r` being the registers with the byte loaded. -/
theorem brgSteps_byte {s : State} {r : Brg} (h : InStage .body i s.brg) (hr : InStage .body i r)
    (hx : r.x = x) (hk : r.k = 0) (he : r.e = 0#8)
    (first : bodyStep i s = afterSlot last (shiftSlot { s with brg := r })) :
    brgSteps 8 s = last { (sendByte x s).2 with brg := { r with e := (sendByte x s).1, k := 8 } } := by
  have eight := shiftSlot_eight (s := { s with brg := r }) hk he
  rw [hx, sendByte_setBrg x s r] at eight
  rw [brgSteps, brgStep_body h, first, afterSlot, shiftSlot_k, if_neg (by rw [hk]; decide), andThen_next,
    brgSteps_slots slots 6 _ (inStage_shiftSlot hr) ((shiftSlot_x _).trans hx) (by simp)
      (by rw [shiftSlot_k, hk]), ← Function.iterate_succ_apply, eight]

end Slots

/-! ### The byte command (R174) -/

/-- Eight steps of a byte command that has just started. -/
theorem brgSteps_byteIo {s : State} (ready : s.brg.ready = true) (o : CommOpts) (x : Byte) :
    brgSteps 8 (startCommand (.commByteIo o x) s) =
      endByte { (sendByte x s).2 with brg :=
        { (startCommand (.commByteIo o x) s).brg with x := x, e := (sendByte x s).1, k := 8 } }
        fun t => .next (afterBody o t) := by
  have start := inStage_startCommand ready (.commByteIo o x)
  have slots (t : State) (hx : t.brg.x = x) (_ : t.brg.k ≠ 0) : bodyStep (.commByteIo o x) t =
      afterSlot (fun u => endByte u fun t => .next (afterBody o t)) (shiftSlot t) := by
    rw [bodyStep, bodyCommByteIo_eq, ← hx]
  rw [brgSteps_byte slots start (r := { (startCommand (.commByteIo o x) s).brg with x := x })
    ⟨start.sound, rfl, rfl, rfl⟩ rfl rfl rfl rfl, sendByte_startCommand]

/-- Settles O19: eight slots from the start, then the echo finds room. -/
theorem byteIoBody : Obligations.ByteIoBody := by
  intro o x echo s u ex ready running room sent
  obtain ⟨rfl, rfl⟩ := Prod.ext_iff.mp sent
  rw [runComm_eq_brgSteps (i := .commByteIo o x) rfl rfl ex ready running, brgSteps_byteIo ready,
    endByte_of_room (by simpa using room)]
  rfl

/-! ### The block command (R175) -/

/-- The end of a byte of a block: its echo goes to `RBUF`, and after the last byte the body is done. -/
def endBlockByte (o : CommOpts) (n : Half) (u : State) : Out :=
  endByte u fun v =>
    let w : State := { v with brg := { v.brg with m := v.brg.m + 1 } }
    if n.toNat ≤ w.brg.m then .next (afterBody o w) else .next w

theorem endBlockByte_of_room {o : CommOpts} {n : Half} {u v : State}
    (room : u.brg.rbuf.length < u.cfg.bufCap)
    (hv : v = { u with brg := { u.brg with
      k := 0, e := 0#8, rbuf := u.brg.rbuf ++ [u.brg.e], m := u.brg.m + 1 } }) :
    endBlockByte o n u = .next (if n.toNat ≤ u.brg.m + 1 then afterBody o v else v) := by
  rw [endBlockByte, endByte_of_room room, hv, apply_ite Host.Outcome.next]

/-- Are there bytes to send and room for their echoes (R175)? -/
def BlockFits (c : Config) (b : Brg) (n : Half) : Prop :=
  n.toNat ≤ b.wbuf.length ∧ b.rbuf.length + n.toNat ≤ c.bufCap

theorem bodyCommBlockIo_of_fits {o : CommOpts} {n : Half} {s : State}
    (fits : s.brg.k = 0 → s.brg.m = 0 → BlockFits s.cfg s.brg n) :
    bodyCommBlockIo o n s = loadByte s fun t => afterSlot (endBlockByte o n) (shiftSlot t) :=
  if_neg fun ⟨hk, hm, unfit⟩ => unfit (fits hk hm)

theorem bodyCommBlockIo_of_unfit {o : CommOpts} {n : Half} {s : State} (hk : s.brg.k = 0) (hm : s.brg.m = 0)
    (unfit : ¬ BlockFits s.cfg s.brg n) : bodyCommBlockIo o n s = .refused .blockBuffers :=
  if_pos ⟨hk, hm, unfit⟩

theorem loadByte_cons {s : State} {x : Byte} {rest : List Byte} (hk : s.brg.k = 0)
    (hw : s.brg.wbuf = x :: rest) (k : State → Out) :
    loadByte s k = k { s with brg := { s.brg with x := x, wbuf := rest } } := by
  simp [loadByte, hk, hw]

theorem loadByte_inside {s : State} (hk : s.brg.k ≠ 0) (k : State → Out) : loadByte s k = k s :=
  if_neg hk

/-- Where a block stands once the bytes `xs` are sent and `rest` is left in `WBUF`. -/
def blockSent (s : State) (xs rest : List Byte) : State :=
  { (sendBytes xs s).2 with
    brg := { s.brg with
      wbuf := rest, rbuf := s.brg.rbuf ++ (sendBytes xs s).1, k := 0, m := s.brg.m + xs.length,
      x := xs.getLastD s.brg.x, e := 0#8 } }

/-- Bytes sent one after the other. -/
theorem blockSent_cons (s : State) (x : Byte) (xs rest : List Byte) :
    blockSent s (x :: xs) rest = blockSent (blockSent s [x] (xs ++ rest)) xs rest := by
  simp only [blockSent, sendBytes, sendBytes_setBrg, List.length_cons, List.length_nil, List.append_assoc,
    List.cons_append, List.nil_append, List.getLastD_cons, List.getLastD_nil, Nat.add_assoc, Nat.add_comm 1,
    Nat.zero_add]

section Block

variable {o : CommOpts} {n : Half}

/-- Eight steps of a block command at the start of a byte send the oldest byte of `WBUF`; `xs` are the bytes
of the block after it. -/
theorem brgSteps_blockByte {s : State} {x : Byte} {xs rest : List Byte}
    (h : InStage .body (.commBlockIo o n) s.brg) (hk : s.brg.k = 0) (he : s.brg.e = 0#8)
    (hw : s.brg.wbuf = x :: (xs ++ rest)) (left : s.brg.m + (xs.length + 1) = n.toNat)
    (room : s.brg.rbuf.length + (xs.length + 1) ≤ s.cfg.bufCap) :
    brgSteps 8 s = .next (if n.toNat ≤ s.brg.m + 1 then afterBody o (blockSent s [x] (xs ++ rest))
      else blockSent s [x] (xs ++ rest)) := by
  have fits (_ : s.brg.k = 0) (hm : s.brg.m = 0) : BlockFits s.cfg s.brg n := by
    simp only [BlockFits, hw, List.length_cons, List.length_append]
    omega
  have first := bodyCommBlockIo_of_fits (o := o) fits
  rw [loadByte_cons hk hw] at first
  have slots (t : State) (_ : t.brg.x = x) (hk : t.brg.k ≠ 0) : bodyStep (.commBlockIo o n) t =
      afterSlot (endBlockByte o n) (shiftSlot t) := by
    rw [bodyStep, bodyCommBlockIo_of_fits fun hk' => absurd hk' hk, loadByte_inside hk]
  have roomForOne : s.brg.rbuf.length < s.cfg.bufCap := by omega
  rw [brgSteps_byte slots h (r := { s.brg with x := x, wbuf := xs ++ rest })
    ⟨h.sound, h.busy, h.cur, h.stage⟩ rfl hk he first, endBlockByte_of_room (by simpa using roomForOne) rfl]
  rfl

/-- A block command sends its bytes, from the start of any of them to the last (R175). -/
theorem brgSteps_block (xs : List Byte) {s : State} {x : Byte} {rest : List Byte}
    (h : InStage .body (.commBlockIo o n) s.brg) (hk : s.brg.k = 0) (he : s.brg.e = 0#8)
    (hw : s.brg.wbuf = x :: (xs ++ rest)) (left : s.brg.m + (xs.length + 1) = n.toNat)
    (room : s.brg.rbuf.length + (xs.length + 1) ≤ s.cfg.bufCap) :
    brgSteps (8 * (xs.length + 1)) s = .next (afterBody o (blockSent s (x :: xs) rest)) := by
  induction xs generalizing s x with
  | nil =>
    rw [List.length_nil] at left ⊢
    rw [brgSteps_blockByte h hk he hw left room, if_pos (by omega)]
    rfl
  | cons y ys ih =>
    have byte := brgSteps_blockByte h hk he hw left room
    rw [List.length_cons] at left room
    rw [if_neg (by omega)] at byte
    have split : 8 * ((y :: ys).length + 1) = 8 + 8 * (ys.length + 1) := by
      rw [List.length_cons]
      omega
    rw [split, brgSteps_add, byte, andThen_next, blockSent_cons s x (y :: ys)]
    refine ih (s := blockSent s [x] (y :: ys ++ rest)) ⟨h.sound, h.busy, h.cur, h.stage⟩ rfl rfl rfl ?_ ?_
    · simp only [blockSent, List.length_cons, List.length_nil]
      omega
    · simp only [blockSent, sendBytes, sendByte_cfg, List.length_append, List.length_cons, List.length_nil]
      omega

end Block

theorem runnable_blockIo {c : Config} {o : CommOpts} {n : Half}
    (h : Instr.runnable c (.commBlockIo o n) = true) : 1 ≤ n.toNat := by
  simp only [Instr.runnable, Instr.wellFormed, Bool.and_eq_true, decide_eq_true_eq] at h
  obtain ⟨-, pos, -⟩ := h
  exact pos

/-- Settles O20: the bytes one after the other, from the state in which the command starts. -/
theorem blockIoBody : Obligations.BlockIoBody := by
  intro o n xs rest echoes s u runnable ready running hw length room sent
  obtain ⟨rfl, rfl⟩ := Prod.ext_iff.mp sent
  refine ⟨_, ?_, rfl⟩
  obtain ⟨hi, hs, ex⟩ := comm_of_runnable runnable
  rw [runComm_eq_brgSteps hi hs ex ready running, ← length]
  cases xs with
  | nil =>
    have pos := runnable_blockIo runnable
    rw [← length] at pos
    cases pos
  | cons x xs =>
    rw [List.length_cons] at length ⊢
    rw [brgSteps_block xs (inStage_startCommand ready _) rfl rfl hw (by simpa using length)
      (by simpa [length] using room), blockSent, sendBytes_startCommand, startCommand_m, Nat.zero_add]
    rfl

/-! ### The refusals of the buffers (R173, R175) -/

/-- Settles O21: the bit and the byte find no room at their end, the block is looked at before its start. -/
theorem bufferRefusals : Obligations.BufferRefusals := by
  intro o s ex ready running
  refine ⟨fun full => ⟨fun d => ?_, fun x => ?_⟩, fun n _ unfit => ?_⟩
  · rw [runComm_one (i := .commBitIo o d) rfl rfl ex ready running]
    exact bodyCommBitIo_of_full full
  · rw [runComm_eq_brgSteps (i := .commByteIo o x) rfl rfl ex ready running, brgSteps_byteIo ready,
      endByte_of_full (by simpa using full)]
  · rw [runComm_one (i := .commBlockIo o n) rfl rfl ex ready running]
    refine bodyCommBlockIo_of_unfit rfl rfl fun ⟨bytes, room⟩ => ?_
    simp only [startCommand_wbuf, startCommand_rbuf, startCommand_cfg] at bytes room
    omega

/-! ### A block under way (R175) -/

/-- A byte of a block ends in a next state when there is room for its echo. -/
theorem afterSlot_block_next {o : CommOpts} {n : Half} {u : State}
    (room : u.brg.rbuf.length < u.cfg.bufCap) : ∃ t, afterSlot (endBlockByte o n) u = .next t := by
  unfold afterSlot
  split_ifs
  · exact ⟨_, endBlockByte_of_room room rfl⟩
  · exact ⟨u, rfl⟩

/-- Settles O38: by the invariant there is a byte to load at the start of each byte, and room at its end. -/
theorem blockNeverStarves : Obligations.BlockNeverStarves := by
  intro s o n inv sound busy cur stage started
  obtain ⟨more, bytes, space⟩ := inv.block o n cur stage started
  have room : s.brg.rbuf.length < s.cfg.bufCap := by omega
  rw [brgStep_body ⟨sound, busy, cur, stage⟩, bodyStep,
    bodyCommBlockIo_of_fits fun hk hm => absurd started (by simp [hk, hm])]
  by_cases hk : s.brg.k = 0
  · obtain ⟨x, rest, hw⟩ : ∃ x rest, s.brg.wbuf = x :: rest := by
      rw [if_pos hk] at bytes
      exact List.exists_cons_of_length_pos (by omega)
    rw [loadByte_cons hk hw]
    exact afterSlot_block_next (by rw [shiftSlot_brg, (shiftSlot_engineFrame _).cfg]; exact room)
  · rw [loadByte_inside hk]
    exact afterSlot_block_next (by rw [shiftSlot_brg, (shiftSlot_engineFrame _).cfg]; exact room)

end Sys2Proof.Proofs
end

section
/-! The commands that complete without data (41_comm_commands.md R172, R177, R178), the epilogues and completion
(R170, R180, R181). -/

namespace Sys2Proof.Proofs

open Sys2Proof.Machine Sys2Proof.Laws

/-! ### Completion -/

/-- Completion leaves the engine at rest, with one result byte more (R171). -/
theorem completeCommand_eq (r : Byte) (s : State) :
    completeCommand r s = { s with brg := { s.brg.atRest with resq := s.brg.resq ++ [r] } } := rfl

/-- A command without epilogues completes in the step after its body. -/
theorem runComm_two {i : Instr} {o : CommOpts} {s t : State} (hi : i.category = .comm)
    (hs : isSearch i = false) (ex : i.optsB3.1.executable = true) (plain : o.noEpilogue = true)
    (ready : s.brg.ready = true) (running : s.brg.halt = false)
    (body : bodyStep i (startCommand i s) = .next (afterBody o t)) :
    runComm i 2 s = .next (completeCommand t.brg.res t) := by
  have start := inStage_startCommand ready i
  have keeps := commandKeeps_bodyStep body
  have fixed := keeps.fixed
  have kept := keeps.kept
  simp only [engineFixed, Proofs.kept, Prod.mk.injEq] at fixed kept
  obtain ⟨-, -, -, -, -, fault⟩ := fixed
  obtain ⟨-, -, -, exec, cur, -⟩ := kept
  have stage : (afterBody o t).brg.stage = .finish := by
    simp only [CommOpts.noEpilogue, Bool.and_eq_true, Bool.not_eq_true'] at plain
    simp [afterBody, plain]
  have finish : InStage .finish i (afterBody o t).brg := ⟨fault.trans start.sound, exec, cur, stage⟩
  rw [runComm_eq_brgSteps hi hs ex ready running, brgSteps_add 1 1, brgSteps_one, brgStep_body start, body,
    andThen_next, brgSteps_one, brgStep_finish finish]
  rfl

theorem runnable_setDuration {c : Config} {o : CommOpts} {type : PulseKind} {code : Byte}
    (h : Instr.runnable c (.commSetDuration o type code) = true) : o.noEpilogue = true :=
  (Bool.and_eq_true_iff.mp h).2

/-- Settles O16: the body writes the register of its type. -/
theorem setDurationRuns : Obligations.SetDurationRuns := by
  intro o type code s runnable ready running
  obtain ⟨hi, hs, ex⟩ := comm_of_runnable runnable
  rw [runComm_two hi hs ex (runnable_setDuration runnable) ready running rfl]
  cases type <;> rfl

/-! ### The bus reset (R172) -/

theorem runnable_onewireReset {c : Config} {o : CommOpts} {se : Bool} {speed : Byte}
    (h : Instr.runnable c (.commOnewireReset o se speed) = true) : o.noEpilogue = true := by
  simp only [Instr.runnable, Instr.wellFormed, Bool.and_eq_true] at h
  obtain ⟨-, plain, -⟩ := h
  exact plain

/-- A bus reset makes its cycle at the speed register, which with `SE` it has latched. -/
theorem bodyCommOnewireReset_eq (o : CommOpts) (se : Bool) (speed : Byte) (s : State) :
    bodyCommOnewireReset o se speed s = .next (afterBody o (addResult (resetResult (wireReset s).1)
      { (wireReset s).2 with
        brg := { s.brg with speed := if se then speed else s.brg.speed }
        trace := .wireReset (if se then speed else s.brg.speed) :: s.trace })) := by
  have cycle := wireReset_setBrg s { s.brg with speed := if se then speed else s.brg.speed }
  cases se <;> exact congrArg
    (fun a : ResetAnswer × State => Host.Outcome.next (afterBody o (addResult (resetResult a.1) a.2))) cycle

/-- Settles O17: the body latches the speed and makes the cycle, whose answer is the result. -/
theorem onewireResetRuns : Obligations.OnewireResetRuns := by
  rintro o se speed v s a u runnable ready running rfl reset
  obtain ⟨hi, hs, ex⟩ := comm_of_runnable runnable
  rw [wireReset_setBrg s] at reset
  obtain ⟨rfl, rfl⟩ := Prod.ext_iff.mp reset
  obtain ⟨w, d, frame⟩ := wireReset_frame s
  have body := bodyCommOnewireReset_eq o se speed (startCommand (.commOnewireReset o se speed) s)
  rw [runComm_two hi hs ex (runnable_onewireReset runnable) ready running body, wireReset_startCommand,
    addResult, startCommand_res, BitVec.zero_or, frame]
  rfl

/-! ### Pulses (R178) -/

section Pulses

variable {o : CommOpts} {s : State}

theorem bodyCommPulse_spu_disabled (off : s.brg.spue s.cfg = false) :
    bodyCommPulse o .spu s = .next (afterBody o s) := by
  simp [bodyCommPulse, off]

theorem bodyCommPulse_spu_enabled (on : s.brg.spue s.cfg = true) :
    bodyCommPulse o .spu s = .next (beginPullUp s) := by
  simp [bodyCommPulse, on]

theorem bodyCommPulse_prg_disabled (off : s.brg.prge s.cfg = false) :
    bodyCommPulse o .prg s = .next (afterBody o s) := by
  simp [bodyCommPulse, off]

theorem bodyCommPulse_prg_unsupplied (on : s.brg.prge s.cfg = true) (supply : s.vppIn = false) :
    bodyCommPulse o .prg s = .next (afterBody o (addResult Config.rrVPP s)) := by
  simp [bodyCommPulse, on, supply]

theorem bodyCommPulse_prg_refused (on : s.brg.prge s.cfg = true) (supply : s.vppIn = true)
    (zero : s.brg.ppd = 0#8) : bodyCommPulse o .prg s = .refused .zeroPulseDuration := by
  simp [bodyCommPulse, on, supply, zero]

theorem bodyCommPulse_prg_enabled (on : s.brg.prge s.cfg = true) (supply : s.vppIn = true)
    (nonzero : s.brg.ppd ≠ 0#8) : bodyCommPulse o .prg s = .next (beginProgram s) := by
  simp [bodyCommPulse, on, supply, nonzero]

end Pulses

/-- Settles O22: the enable, the supply and the duration code, each looked at in the body. -/
theorem pulseGates : Obligations.PulseGates := by
  intro o s ex plain ready running
  have begins (type : PulseKind) {out : Out}
      (body : bodyCommPulse o type (startCommand (.commPulse o type) s) = out) :
      runComm (.commPulse o type) 1 s = out :=
    (runComm_one (i := .commPulse o type) rfl rfl ex ready running).trans body
  have ends (type : PulseKind) {t : State}
      (body : bodyCommPulse o type (startCommand (.commPulse o type) s) = .next (afterBody o t)) :
      runComm (.commPulse o type) 2 s = .next (completeCommand t.brg.res t) :=
    runComm_two rfl rfl ex plain ready running body
  refine ⟨fun off => ?_, fun off => ?_, fun on supply => ?_, fun on supply zero => ?_, fun on => ?_,
    fun on supply nonzero => ?_⟩
  · exact ends .spu (bodyCommPulse_spu_disabled off)
  · exact ends .prg (bodyCommPulse_prg_disabled off)
  · rw [ends .prg (bodyCommPulse_prg_unsupplied on supply), addResult, startCommand_res, BitVec.zero_or]
    rfl
  · exact begins .prg (bodyCommPulse_prg_refused on supply zero)
  · exact begins .spu (bodyCommPulse_spu_enabled on)
  · exact begins .prg (bodyCommPulse_prg_enabled on supply nonzero)

/-! ### The epilogues (R170, R180, R181) -/

/-- Settles O24: one step of the engine at each stage after the body. -/
theorem epilogues : Obligations.Epilogues := by
  intro s i sound busy cur
  refine ⟨fun a u _ plain stage reset => ?_, fun stage on => ?_, fun stage off => ?_, fun stage => ?_⟩
  · obtain ⟨rfl, rfl⟩ := Prod.ext_iff.mp reset
    rw [brgStep_resetAfter ⟨sound, busy, cur, stage⟩, resetEpilogue, plain]
    simp only [toStage, addResult, wireReset_brg]
    rfl
  · rw [brgStep_pullUp ⟨sound, busy, cur, stage⟩, pullUpEpilogue, if_pos on]
    rfl
  · rw [brgStep_pullUp ⟨sound, busy, cur, stage⟩, pullUpEpilogue, off]
    rfl
  · exact brgStep_finish ⟨sound, busy, cur, stage⟩

end Sys2Proof.Proofs
end

section
/-! The mode commands (42_mode_commands.md): a mode record that reaches a ready bridge writes its register and
nothing else, and the byte of the Status Record at the register's offset is the one byte that changes. -/

namespace Sys2Proof.Proofs

open Sys2Proof.Machine Sys2Proof.Laws

/-! ### The write (R200) -/

theorem exec_mode_ready {i : Instr} {s : State} (hi : i.category = .mode) (ready : s.brg.ready = true) :
    exec i s = .next { s with brg := modeWrite s.cfg i s.brg } := by
  obtain ⟨sound, free⟩ := ready_iff.mp ready
  rw [exec_of_mode hi]
  exact acceptMode_eq_next.mpr ⟨sound, .inr ⟨free, rfl⟩⟩

/-- Settles O11: what a mode record writes is read off `modeWrite`, one command at a time. -/
theorem modeWrites : Obligations.ModeWrites := by
  intro s ready
  exact ⟨fun _ _ => exec_mode_ready rfl ready, fun _ => exec_mode_ready rfl ready,
    fun _ => exec_mode_ready rfl ready, fun _ => exec_mode_ready rfl ready,
    fun _ => exec_mode_ready rfl ready, fun _ => exec_mode_ready rfl ready,
    fun _ => exec_mode_ready rfl ready, fun _ => exec_mode_ready rfl ready⟩

/-! ### The readback (R209) -/

/-- The enable byte shows each enable under its own mask (R50). -/
theorem testFlag_enableFlags {c : Config} (hc : c.Legal) (spue prge spce : Bool) :
    testFlag (enableFlags c spue prge spce) c.flags.spue = spue ∧
      testFlag (enableFlags c spue prge spce) c.flags.prge = prge ∧
      testFlag (enableFlags c spue prge spce) c.flags.spce = spce := by
  have apart := hc.enables
  have bits := hc.enableBits
  simp only [Apart, List.pairwise_cons, List.mem_cons, forall_eq_or_imp, List.not_mem_nil, false_imp_iff,
    implies_true, and_true] at apart bits
  obtain ⟨⟨a1, a2⟩, a3, -⟩ := apart
  obtain ⟨b1, b2, b3⟩ := bits
  have swapped {m k : Byte} (h : m &&& k = 0#8) (b : Bool) : testFlag (flagIf b k) m = false :=
    testFlag_flagIf_apart (by rwa [BitVec.and_comm]) b
  refine ⟨?_, ?_, ?_⟩ <;>
    simp only [enableFlags, testFlag_or, testFlag_flagIf_self, testFlag_flagIf_apart, swapped, a1, a2, a3,
      b1, b2, b3, Bool.false_or, Bool.or_false, ne_eq, not_false_eq_true]

/-- Outside the three masks the enable byte is 0 (R50). -/
theorem enableFlags_reserved (c : Config) (spue prge spce : Bool) :
    enableFlags c spue prge spce &&& ~~~(c.flags.spue ||| c.flags.prge ||| c.flags.spce) = 0#8 := by
  apply BitVec.eq_of_getLsbD_eq
  intro k hk
  simp only [enableFlags, BitVec.getLsbD_and, BitVec.getLsbD_or, BitVec.getLsbD_not, flagIf_getLsbD]
  grind

/-- Where the Status Record shows the register a mode record writes (R65): `EN` for the two enable commands,
and for a record that writes no mode register, where any offset would do. -/
def modeOffset (l : StatusLayout) : Instr → Nat
  | .modeBusSpeed _ => l.speed
  | .modePullupDuration _ => l.spud
  | .modeSlewRate _ => l.slew
  | .modePulseDuration _ => l.pdur0
  | .modeTiming0 _ => l.pdur1
  | .modeTiming1 _ => l.pdur2
  | _ => l.en

/-- At every other offset the record is as before; none of the status flags looks at a mode register. -/
theorem statusByte_modeWrite_of_ne (i : Instr) (s : State) (j : Nat) (h : j ≠ modeOffset s.cfg.layout i) :
    statusByte { s with brg := modeWrite s.cfg i s.brg } j = statusByte s j := by
  cases i <;> simp only [modeOffset] at h <;>
    simp [statusByte, statusFlags, Brg.outstanding, modeWrite, h]

/-- What the Status Record shows after a mode record, where it shows `v` for the register written. -/
theorem exec_mode_shown {s : State} {v : Byte} (i : Instr) (hi : i.category = .mode)
    (ready : s.brg.ready = true)
    (shown : statusByte { s with brg := modeWrite s.cfg i s.brg } (modeOffset s.cfg.layout i) = v) :
    ∃ t, exec i s = .next t ∧ statusByte t (modeOffset s.cfg.layout i) = v ∧
      ∀ j, j ≠ modeOffset s.cfg.layout i → statusByte t j = statusByte s j :=
  ⟨_, exec_mode_ready hi ready, shown, statusByte_modeWrite_of_ne i s⟩

/-- Settles O12: the byte at the register's offset reads the register, the others read what the write leaves. -/
theorem modeEchoed : Obligations.ModeEchoed := by
  rintro s f l hc rfl rfl ready
  have shown (b : Brg) := statusLayout.1 { s with brg := b } s.cfg.layout hc rfl
  simp only [forall_and] at shown
  obtain ⟨en, speed, spud, ppd, tp0, tp1, -, slew, -⟩ := shown
  refine ⟨fun spue prge => ⟨_, exec_mode_ready rfl ready, ?_⟩,
    fun spce => ⟨_, exec_mode_ready rfl ready, ?_⟩, fun v => ?_⟩
  · obtain ⟨up, prog, chg⟩ := testFlag_enableFlags hc spue prge (s.brg.spce s.cfg)
    rw [en, en s.brg]
    exact ⟨up, prog, chg, enableFlags_reserved .., statusByte_modeWrite_of_ne (.modePulseEn spue prge) s⟩
  · obtain ⟨up, prog, chg⟩ := testFlag_enableFlags hc (s.brg.spue s.cfg) (s.brg.prge s.cfg) spce
    rw [en, en s.brg]
    exact ⟨chg, up, prog, enableFlags_reserved .., statusByte_modeWrite_of_ne (.modeSpeedChangeEn spce) s⟩
  · simp only [List.forall_mem_cons, List.not_mem_nil, false_imp_iff, implies_true, and_true]
    exact ⟨exec_mode_shown (.modeBusSpeed v) rfl ready (speed _),
      exec_mode_shown (.modePullupDuration v) rfl ready (spud _),
      exec_mode_shown (.modePulseDuration v) rfl ready (ppd _),
      exec_mode_shown (.modeTiming0 v) rfl ready (tp0 _),
      exec_mode_shown (.modeTiming1 v) rfl ready (tp1 _),
      exec_mode_shown (.modeSlewRate v) rfl ready (slew _)⟩

end Sys2Proof.Proofs
end

section
/-! The frame of every operation (43_sequencer_primitives.md R220), raised errors that no recovery attempt takes
(60_exceptions.md R335, R336), and the operations that need no poll: SETSPEED and RELEASE. -/

namespace Sys2Proof.Proofs

open Sys2Proof.Machine Sys2Proof.Laws

/-! ### Runs of moves, and records the sequencer sends -/

/-- A run goes on from the state its first move answers. -/
theorem runMoves_cons {m : Move} {s t : State} (h : applyMove m s = .next t) (ms : List Move) :
    runMoves (m :: ms) s = runMoves ms t := by
  rw [runMoves, h, andThen_next]

/-- A run goes on from the state the sequencer's step answers. -/
theorem runMoves_seq {fate : Fate} {s t : State} (h : seqStep fate s = .next t) (ms : List Move) :
    runMoves (.seq fate :: ms) s = runMoves ms t :=
  runMoves_cons (m := .seq fate) h ms

/-- The same for a step whose call succeeds. -/
theorem runMoves_seqOk {s t : State} (h : seqStep .ok s = .next t) (ms : List Move) :
    runMoves (seqOk :: ms) s = runMoves ms t :=
  runMoves_seq h ms

/-- A run goes on from the state its first part answers. -/
theorem runMoves_append_next {ms : List Move} {s t : State} (h : runMoves ms s = .next t) (ns : List Move) :
    runMoves (ms ++ ns) s = runMoves ns t := by
  rw [runMoves_append, h, andThen_next]

/-- A record whose transfer the bridge never saw (R36). -/
theorem seqStep_ctl_lost {s : State} {w : CmdWord} {rest : List Micro} (hp : s.seq.phase = .ctl w :: rest) :
    seqStep .lost s = .next (raiseError .transportError (setPhase rest s)) := by
  rw [seqStep_cons .lost hp]
  rfl

section Send

variable {s : State} {i : Instr} {rest : List Micro} (hp : s.seq.phase = send s.cfg i :: rest)
  (hc : s.cfg.Legal) (hw : i.wellFormed s.cfg = true)
include hp hc hw

/-- A record that arrives, other than the device reset, has its meaning. -/
theorem seqStep_send {t : State} (hi : i ≠ .ctlResetDevice)
    (he : exec i ((setPhase rest s).logControl (encode s.cfg i)) = .next t) : seqStep .ok s = .next t := by
  obtain ⟨arrives, -, -⟩ := sequencerRunsRecord s _ _ _ rest i hp (decode_encode hc hw) rfl rfl
  refine arrives.trans ((congrArg (andThen · _) he).trans ?_)
  simp only [andThen_next, hi, if_false]

/-- A record that arrives in a transfer that fails (R36). -/
theorem seqStep_send_delivered {t : State}
    (he : exec i ((setPhase rest s).logControl (encode s.cfg i)) = .next t) :
    seqStep .delivered s = .next (raiseError .transportError t) := by
  obtain ⟨-, -, arrives⟩ := sequencerRunsRecord s _ _ _ rest i hp (decode_encode hc hw) rfl rfl
  exact arrives.trans (congrArg (andThen · _) he)

end Send

/-! ### Presenting an operation (R34, R220) -/

section Present

variable {op : HostOp} {s : State} (free : s.seq.busy = false)
  (fits : s.seq.handle = .opened ↔ op.name ≠ .acquire)
include free fits

/-- With no operation in progress and the handle as the operation needs it, the operands decide. -/
theorem present_eq_accepted : present op s = present.accepted op s := by
  unfold present HostOp.isAcquire
  cases handle : s.seq.handle with
  | closed =>
    have acquire : op.name = .acquire := by simpa [handle] using fits
    simp [free, acquire]
  | opened =>
    have other : (op.name == .acquire) = false := by simpa [handle] using fits
    simp [free, other]

theorem present_ok (ok : operandsOk s.cfg op = true) : present op s = .next (beginOperation op s) := by
  rw [present_eq_accepted free fits, present.accepted, if_pos ok]

theorem present_callerError (bad : operandsOk s.cfg op = false) :
    present op s = .next { s with seq :=
      { s.seq with answer := some (.error .callerError op.name s.seq.lastSf) } } := by
  rw [present_eq_accepted free fits, present.accepted, bad]
  rfl

end Present

/-- Settles O46: the refusals in their order, then the two answers to the operands. -/
theorem operationFrame : Obligations.OperationFrame := by
  refine fun op s => ⟨fun busy => ?_, fun free closed name => ?_, fun free opened name => ?_,
    fun free fits => ⟨present_callerError free fits, fun ok => ?_⟩⟩
  · simp [present, busy]
  · simp [present, free, closed, HostOp.isAcquire, beq_eq_false_iff_ne.mpr name]
  · simp [present, free, opened, HostOp.isAcquire, name]
  · exact ⟨_, present_ok free fits ok, rfl, rfl, rfl, rfl, rfl, rfl⟩

/-! ### The duration code (R232) -/

theorem durationCode_toNat {ms : Nat} (h : ms ≤ 4079) : (Machine.durationCode ms).toNat = 1 + ms / 16 := by
  rw [Machine.durationCode, BitVec.toNat_ofNat, Config.durShift, Nat.shiftRight_eq_div_pow]
  omega

/-- Settles O48: the code fits a byte up to 4079 ms, the bound of the operand. -/
theorem durationCode : Obligations.DurationCode := by
  refine ⟨fun ms h => ?_, fun ms s long opened free => ?_, rfl⟩
  · have code := durationCode_toNat h
    refine ⟨code, fun zero => ?_, by omega, by omega⟩
    have : (Machine.durationCode ms).toNat = 0 := by rw [zero]; rfl
    omega
  · have bad : operandsOk s.cfg (.startpulse ms) = false :=
      decide_eq_false (p := ms ≤ Config.maxPulseMs) (Nat.not_le.mpr long)
    exact ⟨_, present_callerError free (by simp [opened, HostOp.name]) bad⟩

/-! ### Errors that reach the HOST (R335), and errors a recovery attempt drops (R336) -/

/-- What closes every `try` it stands in has no handler of its own: a raised error looks past it. -/
theorem handlerOf_append_of_balanced {d : Nat} {p : List Micro} (h : balanced d p = true) (q : List Micro) :
    handlerOf d (p ++ q) = handlerOf 0 q := by
  fun_induction balanced d p <;> simp_all [handlerOf]

/-- Where every `try` ahead is still whole, an error is answered: the operation ends with it, with the last
status flags. -/
theorem raiseError_of_balanced {e : ErrorKind} {o : OpName} {s : State}
    (h : balanced 0 s.seq.phase = true) (ho : s.seq.op = some o) :
    raiseError e s = { s with seq :=
      { s.seq.atRest with answer := some (.error e o s.seq.lastSf) } } := by
  have host : handlerOf 0 s.seq.phase = .host := by
    simpa [handlerOf] using handlerOf_append_of_balanced h []
  simp only [raiseError, host, answerError, ho]
  rfl

theorem raiseError_drop {e : ErrorKind} {s : State} {p rest : List Micro}
    (hp : s.seq.phase = p ++ .endDrop :: rest) (h : balanced 0 p = true) :
    raiseError e s = setPhase rest s := by
  have drop : handlerOf 0 s.seq.phase = .drop rest := by
    rw [hp, handlerOf_append_of_balanced h, handlerOf]
  rw [raiseError, drop]

theorem raiseError_recover {e : ErrorKind} {s : State} {p rest : List Micro}
    (hp : s.seq.phase = p ++ .endRecover :: rest) (h : balanced 0 p = true) :
    raiseError e s = enterRecovery e rest s := by
  have recover : handlerOf 0 s.seq.phase = .recover rest := by
    rw [hp, handlerOf_append_of_balanced h, handlerOf]
  rw [raiseError, recover]

/-- The return from recovery surfaces the error that was kept. -/
theorem seqStep_reraise {e : ErrorKind} {o : OpName} {s : State} {rest : List Micro} (fate : Fate)
    (hp : s.seq.phase = .reraise e :: rest) (h : balanced 0 rest = true) (ho : s.seq.op = some o) :
    seqStep fate s = .next { s with seq :=
      { s.seq.atRest with answer := some (.error e o s.seq.lastSf) } } := by
  rw [seqStep_cons fate hp, microStep, raiseError_of_balanced (s := setPhase rest s) h ho]
  rfl

/-- Settles O43: the recovery attempt drops every error, and its end answers the one that was kept. -/
theorem recoveryDoesNotNest : Obligations.RecoveryDoesNotNest :=
  ⟨fun _ _ _ _ _ hp h => raiseError_drop hp h, fun _ _ _ _ fate hp h ho => seqStep_reraise fate hp h ho⟩

/-! ### RELEASE (R241) -/

/-- Settles O50: `Close` is a step of its own, whose fate is not looked at. -/
theorem release : Obligations.Release := by
  intro s fate fate' opened free
  have begins : applyMove (.host .release) s = .next (beginOperation .release s) :=
    present_ok free (by simp [opened, HostOp.name]) rfl
  rw [runMoves_cons begins]
  rfl

/-! ### SETSPEED (R243) -/

section SetSpeed

variable {s : State} {v : Byte} (opened : s.seq.handle = .opened) (free : s.seq.busy = false)
  (legal : legalSpeed s.cfg v = true)

include opened free legal in
theorem present_setspeed :
    applyMove (.host (.setspeed v.toNat)) s = .next (beginOperation (.setspeed v.toNat) s) := by
  have fits : v.toNat ≤ 255 := Nat.le_of_lt_succ v.isLt
  exact present_ok free (by simp [opened, HostOp.name]) (by simp [operandsOk, legalByte, byteOf, fits, legal])

/-- What is ahead of a `SETSPEED`: its record, then the configured speed. -/
theorem setspeed_phase (s : State) (v : Byte) : (beginOperation (.setspeed v.toNat) s).seq.phase =
    send s.cfg (.modeBusSpeed v) :: [.setSpeed v, .answer .unit] := by
  simp [beginOperation, program, byteOf]

/-- The machine with the record of a `SETSPEED` taken off what is ahead. -/
def setspeedTaken (v : Byte) (s : State) : State :=
  setPhase [.setSpeed v, .answer .unit] (beginOperation (.setspeed v.toNat) s)

/-- The machine when that record has reached a ready bridge. -/
def setspeedSent (v : Byte) (s : State) : State :=
  { setspeedTaken v s with
    brg := { s.brg with speed := v }
    trace := .record s.cfg.requestType (encode s.cfg (.modeBusSpeed v)) s.seq.ctlTimeout :: s.trace }

theorem exec_setspeed (ready : s.brg.ready = true) : exec (.modeBusSpeed v)
    ((setspeedTaken v s).logControl (encode s.cfg (.modeBusSpeed v))) = .next (setspeedSent v s) :=
  exec_mode_ready rfl ready

/-- A `SETSPEED` whose transfer failed answers the error, with the configured speed as it was. -/
theorem raiseError_setspeed {t : State} (ht : t.seq = (setspeedTaken v s).seq) :
    raiseError .transportError t = { t with seq :=
      { s.seq.atRest with answer := some (.error .transportError .setspeed s.seq.lastSf) } } := by
  rw [raiseError_of_balanced (o := .setspeed) (by rw [ht]; rfl) (by rw [ht]; rfl), ht]
  rfl

end SetSpeed

/-- Settles O49: the record's three fates, and the operands that are no speed. -/
theorem setSpeed : Obligations.SetSpeed := by
  refine ⟨fun s v fate hc opened free legal => ?_, fun s n opened free bad => ?_⟩
  · have phase := setspeed_phase s v
    have begins := runMoves_cons (present_setspeed opened free legal)
    refine ⟨fun ready => ?_, ?_, fun ready => ?_⟩
    · rw [begins, runMoves_seqOk (seqStep_send phase hc legal (by simp) (exec_setspeed ready))]
      rfl
    · rw [begins, runMoves_seq (seqStep_ctl_lost phase)]
      exact congrArg Host.Outcome.next (raiseError_setspeed (t := setspeedTaken v s) rfl)
    · rw [begins, runMoves_seq (seqStep_send_delivered phase hc legal (exec_setspeed ready))]
      exact congrArg Host.Outcome.next (raiseError_setspeed (t := setspeedSent v s) rfl)
  · have bad : operandsOk s.cfg (.setspeed n) = false := by
      rcases bad with large | reserved
      · simp [operandsOk, legalByte, large]
      · simp [operandsOk, byteOf, reserved]
    exact ⟨_, present_callerError free (by simp [opened, HostOp.name]) bad⟩

end Sys2Proof.Proofs
end

section
/-! The short check and the poll loop (43_sequencer_primitives.md R226, R223): the scans of the tail, one read of
the loop, the loop that meets an idle bridge, and the loop that meets one that stays busy. -/

namespace Sys2Proof.Proofs

open Sys2Proof.Machine Sys2Proof.Laws

/-! ### One status read of the sequencer (R221) -/

/-- The machine after the sequencer has taken the record of a status read, with `p` left ahead. -/
def statusTaken (p : List Micro) (s : State) : State :=
  { s with
    brg := { s.brg with resq := [] }
    seq := { s.seq with phase := p, lastSf := statusFlags s, rtail := s.seq.rtail ++ s.brg.resq }
    trace := .status s.cfg.epStatus s.seq.bulkTimeout :: s.trace }

theorem recordTaken_setPhase {s : State} (hc : s.cfg.Legal) (p : List Micro) :
    recordTaken (setPhase p s) = statusTaken p s := by
  rw [recordTaken, recordFlags_statusRecord (s := setPhase p s) hc]
  rfl

/-- A read whose answer was lost or cut on its way back (R36, R221). -/
theorem readStatus_failed {s : State} {fate : Fate} (sound : s.brg.fault = .none)
    (hf : fate = .delivered ∨ ∃ n, fate = .truncated n) (k : List Byte → State → Out) :
    readStatus fate k s = .next (raiseError .transportError (drained s)) := by
  obtain rfl | ⟨n, rfl⟩ := hf
  · exact readStatus_delivered sound k
  · have short : ((statusRecord s).take n).length < Config.statusFixedLen := by
      have := n.isLt
      simp only [List.length_take, Config.statusFixedLen]
      omega
    rw [readStatus, statusTransfer_sound sound, takeRecord, if_pos short]

/-! ### The short check (R226) -/

theorem scanTail_statusTaken {s : State} (hc : s.cfg.Legal) (p : List Micro) :
    scanTail (statusRecord s) (statusTaken p s) = { statusTaken p s with seq :=
      { (statusTaken p s).seq with
        rtail := [], vpp := s.vppIn, healthy := !tailShort (s.seq.rtail ++ s.brg.resq)
        present := !tailShort (s.seq.rtail ++ s.brg.resq) &&
          !tailNoResponse (s.seq.rtail ++ s.brg.resq) } } := by
  rw [← recordVpp_statusRecord hc]
  rfl

/-- A short check whose read goes well. -/
theorem seqStep_shortCheck {s : State} {rest : List Micro} (hc : s.cfg.Legal) (sound : s.brg.fault = .none)
    (hp : s.seq.phase = .shortCheck :: rest) :
    seqStep .ok s = .next (scanTail (statusRecord s) (statusTaken rest s)) := by
  rw [seqStep_cons .ok hp, microStep, readStatus_ok (s := setPhase rest s) sound, recordTaken_setPhase hc]
  rfl

/-- Settles O41: the scans of the whole tail, and the two ways the read can fail. -/
theorem shortCheck : Obligations.ShortCheck := by
  rintro s rest tail hc hp sound rfl
  refine ⟨⟨_, seqStep_shortCheck hc sound hp, scanTail_statusTaken hc rest⟩, ?_, fun fate hf => ?_⟩
  · rw [seqStep_cons .lost hp]
    rfl
  · rw [seqStep_cons fate hp, microStep, readStatus_failed (s := setPhase rest s) sound hf]
    rfl

/-! ### One read of the poll loop (R223) -/

/-- The machine after one read of a poll, with `p` left ahead. -/
def polled (p : List Micro) (s : State) : State :=
  { s with
    brg := { s.brg with resq := [] }
    seq := { s.seq with
      phase := p, n := s.seq.n + 1, lastSf := statusFlags s, rtail := s.seq.rtail ++ s.brg.resq }
    trace := .status s.cfg.epStatus s.seq.bulkTimeout :: s.trace }

theorem pollOnce_plain {st : List Byte} {s : State} {idle : Bool} (hi : recordIdle s.cfg st = idle)
    (h : recordEpof s.cfg st = false) :
    pollOnce st s = pollDecide idle { s with seq := { s.seq with n := s.seq.n + 1 } } := by
  simp [pollOnce, h, hi]

/-- Idle ends the loop, the bound raises `Timeout`, and otherwise a delay and another read go before what is
left. -/
theorem pollDecide_eq (out : Bool) (s : State) :
    pollDecide (!out) s = .next
      (if out ∧ s.seq.n = s.seq.pollMax then
        raiseError .timeout (pushPhase (if out ∧ s.seq.n ≠ s.seq.pollMax then
          [.delay s.cfg.tPoll, .pollRead] else []) s)
      else pushPhase (if out ∧ s.seq.n ≠ s.seq.pollMax then [.delay s.cfg.tPoll, .pollRead] else []) s) := by
  cases out with
  | false => rfl
  | true =>
    by_cases last : s.seq.n = s.seq.pollMax
    · have nothing : pushPhase [] s = s := rfl
      simp [pollDecide, last, nothing]
    · simp [pollDecide, last]

/-- The machine about to make the first read of a poll, with `p` left after the poll. -/
def pollBegun (p : List Micro) (s : State) : State :=
  { s with seq := { s.seq with phase := .pollRead :: p, n := 0 } }

theorem seqStep_pollStart {s : State} {rest : List Micro} (hp : s.seq.phase = pollIdle ++ rest) :
    seqStep .ok s = .next (pollBegun rest s) := by
  rw [seqStep_cons .ok hp]
  rfl

/-- The machine after a read that showed `EPOF`: the device reset comes next. -/
def polledPower (rest : List Micro) (s : State) : State :=
  { polled (.pollReset (!s.brg.outstanding) :: rest) s with seq :=
    { (polled (.pollReset (!s.brg.outstanding) :: rest) s).seq with porSeen := true } }

/-- The machine after the device reset of a poll, with `p` left ahead. -/
def resetSent (p : List Micro) (s : State) : State :=
  { deviceReset (s.logControl (encode s.cfg .ctlResetDevice)) with
    seq := { s.seq with phase := p, rtail := [] } }

section Poll

variable {s : State} {rest : List Micro} (hc : s.cfg.Legal) (sound : s.brg.fault = .none)
  (hp : s.seq.phase = .pollRead :: rest)
include hc sound hp

theorem seqStep_pollRead : seqStep .ok s = pollOnce (statusRecord s) (statusTaken rest s) := by
  rw [seqStep_cons .ok hp, microStep, readStatus_ok (s := setPhase rest s) sound, recordTaken_setPhase hc]
  rfl

/-- Without `EPOF` the record read decides. -/
theorem seqStep_pollRead_plain (plain : s.brg.epof = false) :
    seqStep .ok s = pollDecide (!s.brg.outstanding) (polled rest s) :=
  (seqStep_pollRead hc sound hp).trans <| pollOnce_plain (s := statusTaken rest s)
    (recordIdle_statusRecord hc) ((recordEpof_statusRecord hc).trans plain)

/-- With `EPOF` the device reset is next, and then what the record read showed decides. -/
theorem seqStep_pollRead_power (power : s.brg.epof = true) :
    seqStep .ok s = .next (polledPower rest s) :=
  (seqStep_pollRead hc sound hp).trans <| pollOnce_epof (s := statusTaken rest s)
    (recordIdle_statusRecord hc) ((recordEpof_statusRecord hc).trans power)

end Poll

/-- The device reset of a poll, and then the decision. -/
theorem seqStep_pollReset {s : State} {idle : Bool} {p : List Micro} (hc : s.cfg.Legal)
    (hp : s.seq.phase = .pollReset idle :: p) :
    seqStep .ok s = pollDecide idle (resetSent p s) := by
  rw [seqStep_cons .ok hp]
  exact sendReset_ok (s := setPhase p s) hc (pollDecide idle)

/-- A poll whose first read finds the bridge idle. -/
theorem poll_idle {s : State} {rest : List Micro} (hc : s.cfg.Legal) (hp : s.seq.phase = pollIdle ++ rest)
    (ready : s.brg.ready = true) (plain : s.brg.epof = false) : runMoves [seqOk, seqOk] s = .next { s with
      brg := { s.brg with resq := [] }
      seq := { s.seq with
        phase := rest, n := 1, lastSf := statusFlags s, rtail := s.seq.rtail ++ s.brg.resq }
      trace := .status s.cfg.epStatus s.seq.bulkTimeout :: s.trace } := by
  obtain ⟨sound, free⟩ := ready_iff.mp ready
  have read := seqStep_pollRead_plain (s := pollBegun rest s) hc sound rfl plain
  rw [show (pollBegun rest s).brg.outstanding = false from free] at read
  rw [runMoves_seqOk (seqStep_pollStart hp), runMoves_seqOk read]
  rfl

/-- Settles O40: the read that finds an idle bridge, and the reset that a read with `EPOF` is followed by. -/
theorem pollReads : Obligations.PollReads := by
  refine ⟨fun s rest hc hp sound free plain => poll_idle hc hp (ready_iff.mpr ⟨sound, free⟩) plain,
    fun s rest hc hp sound power => ?_⟩
  have read := seqStep_pollRead_power hc sound hp power
  have decides := (seqStep_pollReset (s := polledPower rest s) (p := rest) hc rfl).trans (pollDecide_eq _ _)
  rw [runMoves_seqOk read, runMoves_seqOk decides]
  exact ⟨pushPhase _ (resetSent rest (polledPower rest s)), rfl, rfl, rfl, rfl, rfl, rfl, rfl, rfl, rfl⟩

/-! ### Delays (R38) -/

theorem seqStep_delay {s : State} {ms : Nat} {p : List Micro} (hp : s.seq.phase = .delay ms :: p) :
    seqStep .ok s = .next ((setPhase (.wait (s.now + ms) :: p) s).log (.delay ms)) := by
  rw [seqStep_cons .ok hp]
  rfl

theorem seqStep_wait_past {s : State} {due : Nat} {p : List Micro} (hp : s.seq.phase = .wait due :: p)
    (past : due ≤ s.now) : seqStep .ok s = .next (setPhase p s) := by
  rw [seqStep_cons .ok hp]
  exact if_pos past

/-- A delay, the passing of its time, and its end (log 14). -/
theorem runMoves_delay {s : State} {ms : Nat} {p : List Micro} (hp : s.seq.phase = .delay ms :: p) :
    runMoves [seqOk, .clock ms, seqOk] s = .next (passTime ms ((setPhase p s).log (.delay ms))) := by
  have past := seqStep_wait_past (p := p) (due := s.now + ms)
    (s := passTime ms ((setPhase (.wait (s.now + ms) :: p) s).log (.delay ms))) rfl (Nat.le_refl _)
  rw [runMoves_seqOk (seqStep_delay hp), runMoves_cons (m := .clock ms) rfl, runMoves_seqOk past]
  rfl

/-! ### A bridge that stays busy (R223, R322) -/

/-- The poll loop is about to read a bridge that is busy. -/
structure BusyPoll (rest : List Micro) (s : State) : Prop where
  legal : s.cfg.Legal
  phase : s.seq.phase = .pollRead :: rest
  sound : s.brg.fault = .none
  busy : s.brg.outstanding = true
  plain : s.brg.epof = false

/-- The machine one read and one delay later: the loop is about to read again. -/
def pollAgain (s : State) : State :=
  { s with
    brg := { s.brg with resq := [], pulse := s.brg.pulse.drain s.cfg.tPoll }
    seq := { s.seq with n := s.seq.n + 1, lastSf := statusFlags s, rtail := s.seq.rtail ++ s.brg.resq }
    now := s.now + s.cfg.tPoll
    trace := .delay s.cfg.tPoll :: .status s.cfg.epStatus s.seq.bulkTimeout :: s.trace }

section Busy

variable {rest : List Micro} {s : State} (h : BusyPoll rest s)
include h

theorem busyPoll_again : BusyPoll rest (pollAgain s) :=
  ⟨h.legal, h.phase, h.sound, h.busy, h.plain⟩

/-- A read that is not the last one (R223). -/
theorem runMoves_busyPoll (more : s.seq.n + 1 ≠ s.seq.pollMax) :
    runMoves [seqOk, seqOk, .clock s.cfg.tPoll, seqOk] s = .next (pollAgain s) := by
  have read : seqStep .ok s = .next (pushPhase [.delay s.cfg.tPoll, .pollRead] (polled rest s)) := by
    rw [seqStep_pollRead_plain h.legal h.sound h.phase h.plain, h.busy]
    exact if_neg more
  rw [runMoves_seqOk read]
  refine (runMoves_delay (s := pushPhase [.delay s.cfg.tPoll, .pollRead] (polled rest s))
    (p := .pollRead :: rest) rfl).trans (congrArg Host.Outcome.next ?_)
  simp only [passTime, State.log, setPhase, pushPhase, polled, pollAgain, h.phase]

/-- The last read (R322). -/
theorem seqStep_lastPoll (last : s.seq.n + 1 = s.seq.pollMax) :
    seqStep .ok s = .next (raiseError .timeout (polled rest s)) := by
  rw [seqStep_pollRead_plain h.legal h.sound h.phase h.plain, h.busy]
  exact if_pos last

end Busy

theorem runMoves_busyPolls {rest : List Micro} (k : Nat) {s : State} (h : BusyPoll rest s)
    (more : s.seq.n + k < s.seq.pollMax) : runMoves (busyPolls s.cfg k) s = .next (pollAgain^[k] s) := by
  induction k generalizing s with
  | zero => rfl
  | succ k ih =>
    have later := ih (busyPoll_again h) (by simp only [pollAgain]; omega)
    rw [busyPolls, runMoves_append_next (runMoves_busyPoll h (by omega))]
    exact later

/-- What `k` reads and delays leave of a machine: the loop counted them, the clock and the trace show them, and
the parameters of the loop are as they were. -/
structure PolledOn (k : Nat) (s t : State) : Prop where
  cfg : t.cfg = s.cfg
  pollMax : t.seq.pollMax = s.seq.pollMax
  bulkTimeout : t.seq.bulkTimeout = s.seq.bulkTimeout
  n : t.seq.n = s.seq.n + k
  now : t.now = s.now + k * s.cfg.tPoll
  reads : t.trace.count (.status s.cfg.epStatus s.seq.bulkTimeout) =
    s.trace.count (.status s.cfg.epStatus s.seq.bulkTimeout) + k
  delays : t.trace.count (.delay s.cfg.tPoll) = s.trace.count (.delay s.cfg.tPoll) + k

theorem polledOn_iterate (s : State) (k : Nat) : PolledOn k s (pollAgain^[k] s) := by
  induction k with
  | zero => constructor <;> simp
  | succ k ih =>
    rw [Function.iterate_succ_apply']
    set t := pollAgain^[k] s
    obtain ⟨cfg, pollMax, bulkTimeout, n, now, reads, delays⟩ := ih
    have shown : (pollAgain t).trace =
        .delay s.cfg.tPoll :: .status s.cfg.epStatus s.seq.bulkTimeout :: t.trace := by
      rw [← cfg, ← bulkTimeout]
      rfl
    have clock : (pollAgain t).now = s.now + k * s.cfg.tPoll + s.cfg.tPoll := by
      rw [← now, ← cfg]
      rfl
    refine ⟨cfg, pollMax, bulkTimeout, congrArg (· + 1) n, ?_, ?_, ?_⟩
    · rw [clock, Nat.succ_mul, Nat.add_assoc]
    · rw [shown, List.count_cons_of_ne (by simp), List.count_cons_self, reads, Nat.add_assoc]
    · rw [shown, List.count_cons_self, List.count_cons_of_ne (by simp), delays, Nat.add_assoc]

theorem busyPoll_iterate {rest : List Micro} (k : Nat) {s : State} (h : BusyPoll rest s) :
    BusyPoll rest (pollAgain^[k] s) :=
  Function.Iterate.rec (BusyPoll rest) h (fun _ => busyPoll_again) k

/-- Settles O39: every read but the last is followed by a delay. -/
theorem pollTimesOut : Obligations.PollTimesOut := by
  intro s rest hc hp sound busy plain bound
  obtain ⟨k, hk⟩ := Nat.exists_eq_add_of_le' bound
  have begun : BusyPoll rest (pollBegun rest s) := ⟨hc, rfl, sound, busy, plain⟩
  have polls := runMoves_busyPolls k begun (show 0 + k < s.seq.pollMax by omega)
  obtain ⟨cfg, pollMax, bulkTimeout, n, now, reads, delays⟩ := polledOn_iterate (pollBegun rest s) k
  set u := pollAgain^[k] (pollBegun rest s)
  have attempts : u.seq.n + 1 = s.seq.pollMax := by
    rw [n, hk]
    exact congrArg (· + 1) (Nat.zero_add k)
  have last := seqStep_lastPoll (busyPoll_iterate k begun) (attempts.trans pollMax.symm)
  have shown : (polled rest u).trace = .status s.cfg.epStatus s.seq.bulkTimeout :: u.trace := by
    simp only [polled, cfg, bulkTimeout]
    rfl
  rw [show s.seq.pollMax - 1 = k by omega]
  refine ⟨polled rest u, ?_, rfl, attempts, now, ?_, ?_⟩
  · rw [List.cons_append, runMoves_seqOk (seqStep_pollStart hp)]
    exact (runMoves_append_next polls _).trans (runMoves_seqOk last [])
  · rw [shown, List.count_cons_self, hk]
    exact congrArg (· + 1) reads
  · rw [shown, List.count_cons_of_ne (by simp)]
    exact delays

end Sys2Proof.Proofs
end

section
/-! The initialization sequence on a prompt bridge, which repairs it from every state
(43_sequencer_primitives.md R228), and a TOUCHBIT whose record is lost, which recovers with it once (R225,
60_exceptions.md R334, R335). -/

namespace Sys2Proof.Proofs

open Sys2Proof.Machine Sys2Proof.Laws

/-! ### The records of the initialization sequence -/

/-- The bridge after a duration command has completed and its result byte was read. -/
def brgSetDuration (c : Config) (type : PulseKind) (code : Byte) (b : Brg) : Brg :=
  { b.atRest with
    spud := if type = .spu then code else b.spud
    ppd := if type = .prg then code else b.ppd
    curcmd := (Instr.commSetDuration immediate type code).value c
    resq := [] }

/-- The status flags look at no more than this. -/
theorem statusFlags_congr {s t : State} (cfg : s.cfg = t.cfg) (vppIn : s.vppIn = t.vppIn)
    (pmodIn : s.pmodIn = t.pmodIn) (pulse : s.brg.pulse = t.brg.pulse) (halt : s.brg.halt = t.brg.halt)
    (outstanding : s.brg.outstanding = t.brg.outstanding) (epof : s.brg.epof = t.brg.epof) :
    statusFlags s = statusFlags t := by
  simp only [statusFlags, *]

/-- Moves of the bridge engine alone are a run of it. -/
theorem runMoves_brg (n : Nat) (s : State) : runMoves (List.replicate n .brg) s = brgSteps n s := by
  induction n generalizing s with
  | zero => rfl
  | succ n ih => exact congrArg (andThen (brgStep s)) (funext ih)

section Records

variable {s : State} {rest : List Micro}

/-- The device reset is accepted whatever the bridge is doing (R151). -/
theorem seqStep_send_reset (hc : s.cfg.Legal) (hp : s.seq.phase = send s.cfg .ctlResetDevice :: rest) :
    seqStep .ok s = .next (resetSent rest s) := by
  rw [seqStep_cons .ok hp]
  exact sendReset_ok (s := setPhase rest s) hc .next

/-- The machine when a duration command has run to its completion, its poll still ahead. -/
def durationRun (type : PulseKind) (code : Byte) (p : List Micro) (s : State) : State :=
  { s with
    brg := { brgSetDuration s.cfg type code s.brg with resq := s.brg.resq ++ [0x00#8] }
    seq := { s.seq with phase := pollIdle ++ p }
    trace := .record s.cfg.requestType (encode s.cfg (.commSetDuration immediate type code)) s.seq.ctlTimeout
      :: s.trace }

/-- The machine when the poll has found it complete, with `p` left ahead. -/
def durationSet (type : PulseKind) (code : Byte) (p : List Micro) (s : State) : State :=
  { s with
    brg := brgSetDuration s.cfg type code s.brg
    seq := { s.seq with
      phase := p, n := 1, rtail := s.seq.rtail ++ (s.brg.resq ++ [0x00#8])
      lastSf := statusFlags { s with brg := brgSetDuration s.cfg type code s.brg } }
    trace := .status s.cfg.epStatus s.seq.bulkTimeout ::
      .record s.cfg.requestType (encode s.cfg (.commSetDuration immediate type code)) s.seq.ctlTimeout ::
        s.trace }

/-- `CommRaw` of a duration command on a bridge that completes at once (R224, R177). -/
theorem runMoves_setDuration {type : PulseKind} {code : Byte} (hc : s.cfg.Legal)
    (hp : s.seq.phase = commRaw s.cfg (.commSetDuration immediate type code) ++ rest)
    (ready : s.brg.ready = true) (running : s.brg.halt = false) (plain : s.brg.epof = false) :
    runMoves promptCommRaw s = .next (durationSet type code rest s) := by
  set i : Instr := .commSetDuration immediate type code
  set u := (setPhase (pollIdle ++ rest) s).logControl (encode s.cfg i)
  obtain ⟨sound, free⟩ := ready_iff.mp ready
  obtain ⟨-, empty⟩ := not_outstanding_iff.mp free
  have runs := setDurationRuns immediate type code u rfl ready running
  have starts : seqStep .ok s = .next (startCommand i u) :=
    seqStep_send hp hc rfl (by simp [i]) (exec_start rfl rfl rfl ready running)
  have completes : runMoves [.brg, .brg] (startCommand i u) = .next (durationRun type code rest s) := by
    rw [runComm_eq_brgSteps (s := u) rfl rfl rfl ready running] at runs
    exact (runMoves_brg 2 _).trans runs
  have flags : statusFlags (durationRun type code rest s) =
      statusFlags { s with brg := brgSetDuration s.cfg type code s.brg } :=
    statusFlags_congr rfl rfl rfl rfl rfl rfl rfl
  have idle : (durationRun type code rest s).brg.ready = true :=
    ready_iff.mpr ⟨sound, not_outstanding_iff.mpr ⟨rfl, empty⟩⟩
  have polls := poll_idle (s := durationRun type code rest s) hc rfl idle plain
  rw [flags] at polls
  rw [promptCommRaw, runMoves_seqOk starts]
  exact (runMoves_append_next completes _).trans polls

end Records

/-! ### The whole sequence (R228, R70) -/

/-- What an observer sees of a prompt initialization sequence, newest first. -/
def initEvents (s : State) : List TraceEvent :=
  let status := .status s.cfg.epStatus s.seq.bulkTimeout
  let record i := .record s.cfg.requestType (encode s.cfg i) s.seq.ctlTimeout
  [status, record (.modePulseEn false true), status,
    record (.commSetDuration immediate .prg s.cfg.initPpdCode), status,
    record (.commSetDuration immediate .spu s.cfg.spudInfinite), record .ctlResetDevice]

/-- The machine after a prompt initialization sequence, with `p` left ahead. -/
def initDone (p : List Micro) (s : State) : State :=
  { s with
    brg := Brg.initialized s.cfg s.draws
    draws := s.draws + 5
    seq := { s.seq with
      phase := p, n := 1, healthy := true, present := true, vpp := s.vppIn, rtail := []
      lastSf := statusFlags { s with brg := Brg.initialized s.cfg s.draws } }
    trace := initEvents s ++ s.trace }

/-- The bridge after a device reset whose five draws start at `d` (R151). -/
def brgReset (c : Config) (d : Nat) : Brg := { Brg.powerOn c d with epof := false }

/-- The bridge after the two duration commands of the sequence. -/
def brgDurationsSet (c : Config) (d : Nat) : Brg :=
  brgSetDuration c .prg c.initPpdCode (brgSetDuration c .spu c.spudInfinite (brgReset c d))

/-- `MODE_PULSE_EN` ends the sequence: after a device reset there is no enable for it to keep. -/
theorem initialized_eq (c : Config) (d : Nat) : { brgDurationsSet c d with
    en := enableFlags c false true ((brgDurationsSet c d).spce c) } = Brg.initialized c d := by
  have none : (brgDurationsSet c d).spce c = false := by
    have zero : (brgDurationsSet c d).en = 0x00#8 := rfl
    simp [Brg.spce, testFlag, zero]
  rw [none]
  rfl

/-- The machine within the sequence: the registers of the bridge, the poll counter, the tail and the flags last
read, what was seen so far, and what is left ahead. -/
def initAt (b : Brg) (n : Nat) (tail : List Byte) (sf : Byte) (evs : List TraceEvent) (p : List Micro)
    (s : State) : State :=
  { s with
    brg := b
    draws := s.draws + 5
    seq := { s.seq with phase := p, n := n, rtail := tail, lastSf := sf }
    trace := evs ++ s.trace }

section Steps

variable {s : State} {b : Brg} {n : Nat} {tail : List Byte} {sf : Byte} {evs : List TraceEvent}
  {p : List Micro} (hc : s.cfg.Legal)
include hc

theorem runMoves_initDuration {type : PulseKind} {code : Byte} (ready : b.ready = true)
    (running : b.halt = false) (plain : b.epof = false) :
    runMoves promptCommRaw
        (initAt b n tail sf evs (commRaw s.cfg (.commSetDuration immediate type code) ++ p) s) =
      .next (initAt (brgSetDuration s.cfg type code b) 1 (tail ++ (b.resq ++ [0x00#8]))
        (statusFlags { s with brg := brgSetDuration s.cfg type code b })
        (.status s.cfg.epStatus s.seq.bulkTimeout ::
          .record s.cfg.requestType (encode s.cfg (.commSetDuration immediate type code)) s.seq.ctlTimeout ::
            evs) p s) :=
  runMoves_setDuration (rest := p) (s := initAt b n tail sf evs _ s) hc rfl ready running plain

theorem seqStep_initEnable :
    seqStep .ok (initAt (brgDurationsSet s.cfg s.draws) n tail sf evs
      (send s.cfg (.modePulseEn false true) :: p) s) =
      .next (initAt (Brg.initialized s.cfg s.draws) n tail sf
        (.record s.cfg.requestType (encode s.cfg (.modePulseEn false true)) s.seq.ctlTimeout :: evs) p s) := by
  rw [← initialized_eq]
  exact seqStep_send (s := initAt (brgDurationsSet s.cfg s.draws) n tail sf evs _ s) rfl hc rfl (by simp)
    (exec_mode_ready rfl rfl)

theorem seqStep_initCheck :
    seqStep .ok (initAt (Brg.initialized s.cfg s.draws) 1 [0x00#8, 0x00#8] sf (initEvents s).tail
      (.shortCheck :: p) s) = .next (initDone p s) := by
  refine (seqStep_shortCheck (s := initAt _ 1 [0x00#8, 0x00#8] sf (initEvents s).tail _ s) hc rfl rfl).trans ?_
  rw [scanTail_statusTaken (s := initAt _ 1 [0x00#8, 0x00#8] sf (initEvents s).tail _ s) hc]
  rfl

end Steps

theorem runMoves_promptInit {s : State} {rest : List Micro} (hc : s.cfg.Legal)
    (hp : s.seq.phase = initSequence s.cfg ++ rest) :
    runMoves promptInit s = .next (initDone rest s) := by
  have reset : seqStep .ok s = .next (initAt (brgReset s.cfg s.draws) s.seq.n []
      s.seq.lastSf [.record s.cfg.requestType (encode s.cfg .ctlResetDevice) s.seq.ctlTimeout]
      ((initSequence s.cfg).drop 1 ++ rest) s) :=
    seqStep_send_reset hc hp
  have moves : promptInit = seqOk :: (promptCommRaw ++ (promptCommRaw ++ [seqOk, seqOk])) := rfl
  rw [moves, runMoves_seqOk reset]
  refine (runMoves_append_next (runMoves_initDuration hc rfl rfl rfl) _).trans ?_
  refine (runMoves_append_next (runMoves_initDuration hc rfl rfl rfl) _).trans ?_
  refine (runMoves_seqOk (seqStep_initEnable hc) _).trans ?_
  exact runMoves_seqOk (seqStep_initCheck hc) _

/-- Settles O44: what a prompt sequence leaves is written out in `initDone`. -/
theorem initRepairs : Obligations.InitRepairs := fun s rest hc hp =>
  ⟨initDone rest s, runMoves_promptInit hc hp, rfl, rfl, rfl, rfl, rfl, rfl, rfl, rfl, rfl, rfl, rfl⟩

/-! ### The recovery attempt (R229, R334, R335) -/

/-- A `try` whose first record is lost begins the recovery attempt; nothing else of it runs. -/
theorem runMoves_try_lost {s : State} {w : CmdWord} {p rest : List Micro}
    (hp : s.seq.phase = .tryBegin :: .ctl w :: (p ++ .endRecover :: rest)) (h : balanced 0 p = true) :
    runMoves [seqOk, .seq .lost] s = .next (enterRecovery .transportError rest s) := by
  have lost := seqStep_ctl_lost (s := setPhase (.ctl w :: (p ++ .endRecover :: rest)) s) rfl
  rw [raiseError_recover (s := setPhase _ _) rfl h] at lost
  rw [runMoves_seqOk (seqStep_cons .ok hp), runMoves_seq lost]
  rfl

/-- A prompt recovery attempt repairs the bridge, and then the error is answered. -/
theorem runMoves_recovery {s : State} {e : ErrorKind} {o : OpName} {rest : List Micro} (hc : s.cfg.Legal)
    (ho : s.seq.op = some o) (h : balanced 0 rest = true) :
    runMoves (promptInit ++ [seqOk, seqOk]) (enterRecovery e rest s) = .next { initDone [] s with seq :=
      { (initDone [] s).seq.atRest with answer := some (.error e o (initDone [] s).seq.lastSf) } } := by
  have repairs := runMoves_promptInit (s := enterRecovery e rest s)
    (rest := .endDrop :: .reraise e :: rest) hc rfl
  have drops : seqStep .ok (initDone (.endDrop :: .reraise e :: rest) s) =
      .next (initDone (.reraise e :: rest) s) := rfl
  have answers := seqStep_reraise (s := initDone (.reraise e :: rest) s) .ok rfl h ho
  exact (runMoves_append_next repairs _).trans ((runMoves_seqOk drops _).trans (runMoves_seqOk answers _))

/-! ### A `TOUCHBIT` whose record is lost (R225, R334, R335) -/

theorem encode_injective {c : Config} (hc : c.Legal) {i j : Instr} (hi : i.wellFormed c = true)
    (hj : j.wellFormed c = true) (h : encode c i = encode c j) : i = j := by
  have := decode_encode hc hi
  rw [h, decode_encode hc hj] at this
  exact (Except.ok.inj this).symm

/-- The initialization sequence sends no bit command, and makes no bus cycle. -/
theorem initEvents_silent {s : State} (hc : s.cfg.Legal) :
    (∀ r x y, .record r (encode s.cfg (.commBitIo immediate x)) y ∉ initEvents s) ∧
      (∀ x y, .slot x y ∉ initEvents s) ∧ ∀ v, .wireReset v ∉ initEvents s := by
  refine ⟨fun r x y h => ?_, fun x y => by simp [initEvents], fun v => by simp [initEvents]⟩
  simp only [initEvents, List.mem_cons, List.not_mem_nil, or_false, reduceCtorEq, false_or,
    TraceEvent.record.injEq] at h
  rcases h with ⟨-, h, -⟩ | ⟨-, h, -⟩ | ⟨-, h, -⟩ | ⟨-, h, -⟩ <;>
    cases encode_injective hc rfl rfl h

/-- Settles O45: the `try` of the command hands the error to the one recovery attempt, whose end answers it. -/
theorem lostBitRecovers : Obligations.LostBitRecovers := by
  intro s b hc opened free
  have begins : applyMove (.host (.touchbit b.toNat)) s = .next (beginOperation (.touchbit b.toNat) s) :=
    present_ok free (by simp [opened, HostOp.name]) (by cases b <;> rfl)
  have phase : (beginOperation (.touchbit b.toNat) s).seq.phase = Micro.tryBegin ::
      Micro.ctl (encode s.cfg (.commBitIo immediate b)) ::
        (pollIdle ++ [Micro.readIn 1] ++ Micro.endRecover :: [Micro.answer .bit]) := by
    cases b <;> rfl
  have lost := runMoves_try_lost phase rfl
  have recovers := runMoves_recovery (s := beginOperation (.touchbit b.toNat) s) (e := .transportError)
    (rest := [.answer .bit]) hc rfl rfl
  rw [List.append_assoc, List.cons_append, runMoves_cons begins, runMoves_append_next lost]
  exact ⟨_, initEvents s, recovers, rfl, rfl, rfl, rfl, rfl, rfl, rfl, initEvents_silent hc⟩

end Sys2Proof.Proofs
end

section
/-! A triplet after its second probe (44_busmaster_ops.md R275, 45_search.md R296). -/

namespace Sys2Proof.Proofs

open Sys2Proof.Machine Sys2Proof.Laws

/-! ### The direction a triplet takes -/

/-- Unless both probes read 1 there is a direction: the caller's when both read 0, else the id bit. -/
theorem directionTaken_of_answer (d : Bool) : ∀ {idBit compBit : Bool}, ¬(idBit = true ∧ compBit = true) →
    directionTaken idBit compBit d = some (if idBit = false ∧ compBit = false then d else idBit)
  | false, false, _ | false, true, _ | true, false, _ => rfl
  | true, true, h => absurd ⟨rfl, rfl⟩ h

/-- The machine when the second probe is read and the direction is decided. -/
def probed (comp : Bool) (taken : Option Bool) (s : State) : State :=
  { s with seq := { s.seq with compBit := comp, taken := taken, bytes := [] } }

section SecondProbe

variable {s : State} {d comp : Bool} (probe : (firstByte s).getLsbD 0 = comp)
include probe

/-- Without a direction there is no third slot. -/
theorem decodeTriplet_abort (h : directionTaken s.seq.idBit comp d = none) :
    decodeTriplet d s = probed comp none s := by
  subst probe
  simp only [decodeTriplet, h, probed]

/-- The direction is written in a third slot. -/
theorem decodeTriplet_write {b : Bool} (h : directionTaken s.seq.idBit comp d = some b) :
    decodeTriplet d s =
      pushPhase (touchBit s.cfg b ++ [.tripletDone]) (probed comp (some b) s) := by
  subst probe
  simp only [decodeTriplet, h, probed]

end SecondProbe

/-- Settles O55: the two probes decide the direction, and the direction decides whether there is a third slot. -/
theorem tripletDecides : Obligations.TripletDecides := by
  intro s d comp rest fate hp read
  have probe : (firstByte (setPhase rest s)).getLsbD 0 = comp := by
    rw [firstByte, setPhase_bytes, read]
    cases comp <;> rfl
  rw [seqStep_cons fate hp, microStep]
  refine ⟨fun id one => ?_, fun answers => ?_⟩
  · have none : directionTaken s.seq.idBit comp d = none := by rw [id, one]; rfl
    exact ⟨_, congrArg Host.Outcome.next (decodeTriplet_abort probe none), rfl, rfl, rfl, rfl, rfl⟩
  · have write := decodeTriplet_write probe (directionTaken_of_answer d answers)
    exact ⟨_, _, congrArg Host.Outcome.next write, rfl, rfl, rfl,
      List.append_assoc _ _ _, rfl, rfl⟩

end Sys2Proof.Proofs
end

section
/-! One bit on a bridge that completes at once (44_busmaster_ops.md R262): the bit command and its slot, the poll
that finds it complete, the byte read back, and the answer of TOUCHBIT. -/

namespace Sys2Proof.Proofs

open Sys2Proof.Machine Sys2Proof.Laws

/-! ### The WIRE does not see the sequencer -/

theorem wireLevel_setSeq (b : Bool) (s : State) (q : Seq) (evs : List TraceEvent) :
    wireLevel b { s with seq := q, trace := evs } =
      ((wireLevel b s).1, { (wireLevel b s).2 with seq := q, trace := evs }) := by
  simp only [wireLevel]
  split
  · rfl
  · split
    · split <;> rfl
    · rfl

/-- What a slot does depends neither on the sequencer nor on what was seen before. -/
theorem wireSlot_setSeq {b r : Bool} {s u : State} (slot : wireSlot b s = (r, u)) (q : Seq)
    (evs : List TraceEvent) : wireSlot b { s with seq := q, trace := evs } =
      (r, { u with seq := q, trace := .slot b r :: evs }) := by
  obtain ⟨rfl, rfl⟩ := Prod.ext_iff.mp slot
  simp only [wireSlot, wireLevel_setSeq]
  rfl

/-- The machine after a slot that answered `r` and left the WIRE as in `u`. -/
theorem eq_of_wireSlot {b r : Bool} {s u : State} (slot : wireSlot b s = (r, u)) :
    u = { s with wire := u.wire, draws := u.draws, trace := .slot b r :: s.trace } := by
  obtain ⟨rfl, rfl⟩ := Prod.ext_iff.mp slot
  obtain ⟨w, d, frame⟩ := wireSlot_frame b s
  rw [frame]

/-! ### The bit command to its completion (R170, R173) -/

/-- The bridge after a bit command that read `r` has completed. -/
def brgBit (c : Config) (o : CommOpts) (d r : Bool) (b : Brg) : Brg :=
  { b.atRest with
    curcmd := (Instr.commBitIo o d).value c
    rbuf := b.rbuf ++ [setBit 0#8 0 r]
    resq := b.resq ++ [0x00#8] }

/-- A bit command without epilogues makes one slot, and completes with no result bit set. -/
theorem runComm_bitIo {o : CommOpts} {d r : Bool} {s u : State} (ex : o.executable = true)
    (plain : o.noEpilogue = true) (ready : s.brg.ready = true) (running : s.brg.halt = false)
    (room : s.brg.rbuf.length < s.cfg.bufCap) (slot : wireSlot d s = (r, u)) :
    runComm (.commBitIo o d) 2 s = .next { u with brg := brgBit s.cfg o d r s.brg } := by
  have body := (bodyCommBitIo_eq_next (o := o) (d := d)
    (s := startCommand (.commBitIo o d) s)).mpr ⟨room, rfl⟩
  rw [runComm_two (i := .commBitIo o d) rfl rfl ex plain ready running body, wireSlot_startCommand, slot]
  rfl

/-! ### `CommRaw` on a bridge that completes at once (R224) -/

/-- A command that completes in two steps of the bridge is found complete by the first poll. -/
theorem runMoves_promptCommRaw {i : Instr} {s t : State} {rest : List Micro} (hc : s.cfg.Legal)
    (hp : s.seq.phase = commRaw s.cfg i ++ rest) (runnable : i.runnable s.cfg = true)
    (hw : i.wellFormed s.cfg = true) (ready : s.brg.ready = true) (running : s.brg.halt = false)
    (runs : runComm i 2 ((setPhase (pollIdle ++ rest) s).logControl (encode s.cfg i)) = .next t)
    (frame : EngineFrame ((setPhase (pollIdle ++ rest) s).logControl (encode s.cfg i)) t)
    (complete : t.brg.ready = true) (plain : t.brg.epof = false) :
    runMoves promptCommRaw s = .next (polled rest (pollBegun rest t)) := by
  obtain ⟨comm, other, ex⟩ := comm_of_runnable runnable
  set u := (setPhase (pollIdle ++ rest) s).logControl (encode s.cfg i)
  have starts : seqStep .ok s = .next (startCommand i u) :=
    seqStep_send hp hc hw (by rintro rfl; cases comm) (exec_start comm other ex ready running)
  rw [runComm_eq_brgSteps (s := u) comm other ex ready running] at runs
  have completes : runMoves [.brg, .brg] (startCommand i u) = .next t := (runMoves_brg 2 _).trans runs
  have phase : t.seq.phase = pollIdle ++ rest := by rw [frame.seq]; rfl
  rw [promptCommRaw, runMoves_seqOk starts]
  exact (runMoves_append_next completes _).trans (poll_idle (frame.cfg ▸ hc) phase complete plain)

/-! ### The bit and its byte (R225, R262) -/

/-- The read of the one byte that is there (R93). -/
theorem seqStep_readIn_one {s : State} {x : Byte} {rest : List Micro}
    (hp : s.seq.phase = .readIn 1 :: rest) (sound : s.brg.fault = .none) (held : s.brg.rbuf = [x]) :
    seqStep .ok s = .next ({ s with
      brg := { s.brg with rbuf := [] }
      seq := { s.seq with phase := rest, bytes := s.seq.bytes ++ [x] } }.logIn [x]) := by
  have read := readIn_whole (n := 1) (s := setPhase rest s) sound (by decide) (by simp [held])
  rw [bytesTaken_eq (s := setPhase rest s) (congrArg (·.take 1) held) (congrArg (·.drop 1) held),
    setPhase_brg, held] at read
  exact (seqStep_cons .ok hp).trans read

/-- The machine when the bit command has completed, the poll and `p` still ahead. -/
def bitRun (d r : Bool) (u : State) (p : List Micro) (s : State) : State :=
  { s with
    brg := brgBit s.cfg immediate d r s.brg
    wire := u.wire
    draws := u.draws
    seq := { s.seq with phase := pollIdle ++ p }
    trace := .slot d r ::
      .record s.cfg.requestType (encode s.cfg (.commBitIo immediate d)) s.seq.ctlTimeout :: s.trace }

/-- The machine when the poll has found it complete, `p` still ahead. -/
def bitPolled (d r : Bool) (u : State) (p : List Micro) (s : State) : State :=
  polled p (pollBegun p (bitRun d r u p s))

/-- The machine when the byte has been read, `p` still ahead. -/
def bitRead (d r : Bool) (u : State) (p : List Micro) (s : State) : State :=
  let t := bitPolled d r u p s
  { t with
    brg := { t.brg with rbuf := [] }
    seq := { t.seq with bytes := s.seq.bytes ++ [setBit 0#8 0 r] } }.logIn [setBit 0#8 0 r]

section Bit

variable {d r : Bool} {s u : State} {rest : List Micro} (hc : s.cfg.Legal) (ready : s.brg.ready = true)
  (running : s.brg.halt = false) (plain : s.brg.epof = false) (empty : s.brg.rbuf = [])
  (slot : wireSlot d s = (r, u))

include hc ready running plain empty slot

/-- `CommRaw` of a bit command on a bridge that completes at once (R224, R173). -/
theorem runMoves_bitCommRaw (hp : s.seq.phase = commRaw s.cfg (.commBitIo immediate d) ++ rest) :
    runMoves promptCommRaw s = .next (bitPolled d r u rest s) := by
  obtain ⟨sound, free⟩ := ready_iff.mp ready
  obtain ⟨-, nothing⟩ := not_outstanding_iff.mp free
  obtain ⟨pos, -, fits⟩ := hc.chunk
  have room : s.brg.rbuf.length < s.cfg.bufCap := by
    rw [empty, List.length_nil]
    omega
  have later := wireSlot_setSeq slot (setPhase (pollIdle ++ rest) s).seq
    (.record s.cfg.requestType (encode s.cfg (.commBitIo immediate d)) s.seq.ctlTimeout :: s.trace)
  have runs := runComm_bitIo (o := immediate)
    (s := (setPhase (pollIdle ++ rest) s).logControl (encode s.cfg (.commBitIo immediate d)))
    rfl rfl ready running room later
  rw [eq_of_wireSlot slot] at runs
  exact runMoves_promptCommRaw (t := bitRun d r u rest s) hc hp rfl rfl ready running runs rfl
    (ready_iff.mpr ⟨sound, not_outstanding_iff.mpr ⟨rfl, nothing⟩⟩) plain

/-- The whole of a bit (R225): its `try` opens and closes around the command and the byte read back. -/
theorem runMoves_touchBit (hp : s.seq.phase = touchBit s.cfg d ++ rest) :
    runMoves (seqOk :: promptCommRaw ++ [seqOk, seqOk]) s = .next (bitRead d r u rest s) := by
  have command := runMoves_bitCommRaw (rest := .readIn 1 :: .endRecover :: rest)
    (s := setPhase (commRaw s.cfg (.commBitIo immediate d) ++ .readIn 1 :: .endRecover :: rest) s)
    hc ready running plain empty (wireSlot_setSeq slot _ s.trace) rfl
  have held : s.brg.rbuf ++ [setBit 0#8 0 r] = [setBit 0#8 0 r] := by rw [empty, List.nil_append]
  have read := seqStep_readIn_one (s := bitPolled d r u (.readIn 1 :: .endRecover :: rest) s) rfl
    (ready_iff.mp ready).1 held
  rw [List.cons_append, runMoves_seqOk (seqStep_cons .ok hp)]
  exact (runMoves_append_next command _).trans (runMoves_seqOk read _)

end Bit

/-- Settles O47: the bit runs whole, and its byte is answered. -/
theorem touchbitAnswers : Obligations.TouchbitAnswers := by
  intro s b r u hc opened free ready running plain empty slot
  have begins : applyMove (.host (.touchbit b.toNat)) s = .next (beginOperation (.touchbit b.toNat) s) :=
    present_ok free (by simp [opened, HostOp.name]) (by cases b <;> rfl)
  have phase : (beginOperation (.touchbit b.toNat) s).seq.phase = touchBit s.cfg b ++ [.answer .bit] := by
    cases b <;> rfl
  have bit := runMoves_touchBit (s := beginOperation (.touchbit b.toNat) s) hc ready running plain empty
    (wireSlot_setSeq slot _ s.trace) phase
  have level : (setBit 0#8 0 r).getLsbD 0 = r := by cases r <;> rfl
  refine ⟨_, (runMoves_cons begins _).trans (runMoves_append_next bit [seqOk]), ?_, rfl, rfl, rfl, ?_, rfl, rfl⟩
  · exact congrArg (fun x => some (Answer.ok (.bit x))) level
  · exact (List.append_assoc _ _ _).symm

end Sys2Proof.Proofs
end

section
/-! The Search State (45_search.md R290 to R301): who changes it, the direction it proposes, and what ends a pass
or a search. -/

namespace Sys2Proof.Proofs

open Sys2Proof.Machine Sys2Proof.Laws

/-! ### What leaves the Search State alone -/

@[simp] theorem raiseError_ss (e : ErrorKind) (s : State) : (raiseError e s).seq.ss = s.seq.ss := by
  obtain ⟨rest, -, h⟩ | ⟨rest, -, h⟩ | ⟨-, h⟩ := raiseError_cases e s <;> rw [h]
  · rfl
  · rfl
  · unfold answerError
    split <;> rfl

@[simp] theorem endPass_ss (reason : EndReason) (s : State) : (endPass reason s).seq.ss = s.seq.ss := by
  unfold endPass
  split_ifs <;> rfl

theorem beginPass_ss (mode : SearchMode) (s : State) : (beginPass mode s).seq.ss = s.seq.ss := by
  unfold beginPass
  split_ifs
  · exact endPass_ss _ s
  · rfl

theorem afterPresence_ss (mode : SearchMode) (s : State) : (afterPresence mode s).seq.ss = s.seq.ss := by
  unfold afterPresence
  split_ifs
  · rfl
  · exact endPass_ss _ s

theorem recordPosition_ss (mode : SearchMode) (s : State) : (recordPosition mode s).seq.ss = s.seq.ss := by
  unfold recordPosition
  split
  · exact endPass_ss _ s
  · dsimp only
    split_ifs <;> rfl

theorem decodeTriplet_ss (d : Bool) (s : State) : (decodeTriplet d s).seq.ss = s.seq.ss := by
  unfold decodeTriplet
  dsimp only
  split <;> rfl

theorem nextChunk_ss (rest : List Byte) (s : State) : (nextChunk rest s).seq.ss = s.seq.ss := by
  unfold nextChunk
  split_ifs <;> rfl

theorem resetTail_ss (s : State) : (resetTail s).seq.ss = s.seq.ss := by
  unfold resetTail
  split_ifs <;> rfl

theorem endPulse_ss (s : State) : (endPulse s).seq.ss = s.seq.ss := by
  unfold endPulse
  split_ifs <;> rfl

theorem pollDecide_ss {idle : Bool} {s t : State} (h : pollDecide idle s = .next t) :
    t.seq.ss = s.seq.ss := by
  unfold pollDecide at h
  split_ifs at h <;> cases h
  · rfl
  · exact raiseError_ss _ s
  · rfl

theorem pollOnce_ss {st : List Byte} {s t : State} (h : pollOnce st s = .next t) : t.seq.ss = s.seq.ss := by
  unfold pollOnce at h
  dsimp only at h
  split_ifs at h
  · cases h; rfl
  · refine (pollDecide_ss h).trans ?_
    rfl

/-! ### Transport calls: the bridge knows nothing of the Search State -/

section Calls

variable {s t : State} {fate : Fate}

theorem transport_ss {effect k : State → Out} (heff : ∀ u, effect s = .next u → u.seq = s.seq)
    (hk : ∀ u v, k u = .next v → v.seq.ss = u.seq.ss) (h : transport fate effect k s = .next t) :
    t.seq.ss = s.seq.ss := by
  obtain ⟨-, rfl⟩ | ⟨-, u, he, hu⟩ | ⟨-, u, he, rfl⟩ := transport_eq_next.mp h
  · exact raiseError_ss _ s
  · rw [hk u t hu, heff u he]
  · rw [raiseError_ss, heff u he]

theorem setupCall_ss {ev : TraceEvent} {k : State → Out}
    (hk : ∀ u v, k u = .next v → v.seq.ss = u.seq.ss) (h : setupCall fate ev k s = .next t) :
    t.seq.ss = s.seq.ss :=
  transport_ss (fun u he => by cases he; rfl) hk h

theorem sendRecord_ss {w : CmdWord} {k : State → Out} (hk : ∀ u v, k u = .next v → v.seq.ss = u.seq.ss)
    (h : sendRecord fate w k s = .next t) : t.seq.ss = s.seq.ss := by
  refine transport_ss (fun u => deliver_seq) (fun u v hv => (hk _ v hv).trans ?_) h
  split_ifs <;> rfl

theorem readStatus_ss {k : List Byte → State → Out} (hk : ∀ st u v, k st u = .next v → v.seq.ss = u.seq.ss)
    (h : readStatus fate k s = .next t) : t.seq.ss = s.seq.ss := by
  obtain ⟨-, rfl⟩ | ⟨-, ⟨-, -, rfl⟩ | ⟨-, h⟩⟩ := readStatus_next h
  · exact raiseError_ss _ s
  · exact raiseError_ss _ (drained s)
  · exact hk _ (recordTaken s) t h

theorem readIn_ss {n : Nat} (h : readIn fate n s = .next t) : t.seq.ss = s.seq.ss := by
  obtain ⟨-, rfl⟩ | ⟨-, -, ⟨-, rfl⟩ | ⟨-, -, rfl⟩⟩ := readIn_next h
  · exact raiseError_ss _ s
  · exact raiseError_ss _ (bytesTaken n s)
  · rfl

end Calls

/-! ### Micro-steps and moves -/

/-- The micro-steps that may write the Search State (R290). -/
def writesSearch : Micro → Prop
  | .srchReset | .srchCommit _ => True
  | _ => False

theorem writesSearch_iff {m : Micro} :
    writesSearch m ↔ m = .srchReset ∨ ∃ mode, m = .srchCommit mode := by
  cases m <;> simp [writesSearch]

/-- Every other micro-step leaves the Search State as it was. -/
theorem microStep_ss {m : Micro} {fate : Fate} {s t : State} (other : ¬ writesSearch m)
    (h : microStep m fate s = .next t) : t.seq.ss = s.seq.ss := by
  have next {u v : State} (h : Host.Outcome.next u = (.next v : Out)) : v.seq.ss = u.seq.ss := by
    cases h; rfl
  have done {u : State} (h : Host.Outcome.next u = (.next t : Out)) (hu : u.seq.ss = s.seq.ss) :
      t.seq.ss = s.seq.ss := (next h).trans hu
  cases m
  case srchReset | srchCommit => exact absurd trivial other
  case openDevice => exact setupCall_ss (fun _ _ h => by cases h; rfl) h
  case claimInterface | setAltSetting | clearHalt => exact setupCall_ss (fun _ _ => next) h
  case ctl w => exact sendRecord_ss (fun _ _ => next) h
  case pollReset idle => exact sendRecord_ss (fun _ _ => pollDecide_ss) h
  case writeOut bytes => exact transport_ss (fun _ => outTransfer_seq) (fun _ _ => next) h
  case readIn n => exact readIn_ss h
  case pollRead => exact readStatus_ss (fun _ _ _ => pollOnce_ss) h
  case shortCheck => exact readStatus_ss (fun _ _ _ h => by cases h; rfl) h
  case wait due =>
    simp only [microStep] at h
    split_ifs at h <;> cases h <;> rfl
  case reraise e => exact done h (raiseError_ss e s)
  case resetTail => exact done h (resetTail_ss s)
  case pulseEnd => exact done h (endPulse_ss s)
  case block rest => exact done h (nextChunk_ss rest s)
  case tripletComp d => exact done h (decodeTriplet_ss d s)
  case srchBegin mode => exact done h (beginPass_ss mode s)
  case srchPresent mode => exact done h (afterPresence_ss mode s)
  case srchBit mode => exact done h (recordPosition_ss mode s)
  all_goals exact done h rfl

theorem present_ss {op : HostOp} {s t : State} (h : present op s = .next t) : t.seq.ss = s.seq.ss := by
  have accepted {t : State} (h : present.accepted op s = .next t) : t.seq.ss = s.seq.ss := by
    unfold present.accepted at h
    split_ifs at h <;> cases h <;> rfl
  unfold present at h
  split_ifs at h
  split at h
  · cases h
  · cases h
  · exact accepted h
  · exact accepted h

/-- A move that changes the Search State is the sequencer's, and runs a micro-step that may. -/
theorem applyMove_ss {m : Move} {s t : State} (h : applyMove m s = .next t)
    (changed : t.seq.ss ≠ s.seq.ss) : ∃ w rest, s.seq.phase = w :: rest ∧ writesSearch w := by
  have kept (same : t.seq.ss = s.seq.ss) : ∃ w rest, s.seq.phase = w :: rest ∧ writesSearch w :=
    absurd same changed
  cases m
  case seq fate =>
    obtain ⟨-, rfl⟩ | ⟨w, rest, phase, h⟩ := seqStep_next h
    · exact kept rfl
    · exact ⟨w, rest, phase, by_contra fun other => changed (microStep_ss (s := setPhase rest s) other h)⟩
  case record w => exact kept (congrArg Seq.ss (deliver_seq h))
  case dataOut bytes => exact kept (congrArg Seq.ss (outTransfer_seq h))
  case dataIn n =>
    unfold applyMove at h
    obtain ⟨-, -, ⟨⟩⟩ := inTransfer_eq_next.mp h
    exact kept rfl
  case status =>
    unfold applyMove at h
    obtain ⟨-, ⟨⟩⟩ := statusTransfer_eq_next.mp h
    exact kept rfl
  case host op => exact kept (present_ss h)
  case brg => exact kept (congrArg Seq.ss (engineStep_frame (engineStep_of_brgStep h).2).seq)
  all_goals
    cases h
    exact kept rfl

/-- Settles O53: the micro-step that ran is the first of what is left, and only two may write. -/
theorem searchStateKept : Obligations.SearchStateKept := by
  intro s t h changed
  obtain ⟨m, agenda, draws, move⟩ := step_next h
  obtain ⟨w, rest, phase, writes⟩ := applyMove_ss move changed
  obtain rfl | ⟨mode, rfl⟩ := writesSearch_iff.mp writes
  · exact ⟨rest, .inl phase⟩
  · exact ⟨rest, .inr ⟨mode, phase⟩⟩

/-! ### SRCH_RESET, and a search after the last device (R292, R299) -/

/-- After the last device a pass ends before it begins. -/
theorem beginPass_exhausted (mode : SearchMode) {s : State} (last : s.seq.ss.lastDeviceFlag = true) :
    beginPass mode s = endPass .exhausted s := by
  rw [beginPass, if_pos last]

theorem endPass_srchNext {reason : EndReason} {s : State} (op : s.seq.op = some .srchNext) :
    endPass reason s = answerOk (.srchEnd reason) s := by
  rw [endPass, op]
  rfl

theorem endPass_search {reason : EndReason} {s : State} (op : s.seq.op = some .search) :
    endPass reason s = answerOk (.roms s.seq.found reason) s := by
  rw [endPass, if_pos op]

/-- Settles O51: `SRCH_RESET` is a step of the sequencer alone, and so is a pass that does not begin. -/
theorem searchResetAndEnd : Obligations.SearchResetAndEnd := by
  intro s mode fate fate' opened free
  have begins (op : HostOp) (name : op.name ≠ .acquire) (ok : operandsOk s.cfg op = true) :
      applyMove (.host op) s = .next (beginOperation op s) := present_ok free (by simp [opened, name]) ok
  refine ⟨?_, fun last => ⟨?_, ?_⟩⟩
  · rw [runMoves_cons (begins .srchReset (by simp [HostOp.name]) rfl)]
    rfl
  · have begun := beginPass_exhausted mode (s := setPhase [] (beginOperation (.srchNext (some mode)) s)) last
    rw [runMoves_cons (begins (.srchNext (some mode)) (by simp [HostOp.name]) rfl)]
    exact congrArg Host.Outcome.next (begun.trans (endPass_srchNext rfl))
  · have begun := beginPass_exhausted mode (s := setPhase [] (beginOperation (.search (some mode)) s)) last
    rw [runMoves_cons (begins (.search (some mode)) (by simp [HostOp.name]) rfl)]
    exact congrArg Host.Outcome.next (begun.trans (endPass_search rfl))

/-! ### The direction proposed (R294) -/

/-- A bit of an identifier stands in its byte. -/
theorem bit_eq_byte (r : Rom) (i : Nat) : r.bit i = (r.byte (i / 8)).getLsbD (i % 8) := by
  have within : i % 8 < 8 := Nat.mod_lt i (by decide)
  rw [Rom.bit, Rom.byte, BitVec.getLsbD_extractLsb', decide_eq_true within, Bool.true_and, Nat.div_add_mod]

/-- Settles O52: the position against the last discrepancy. -/
theorem directionProposed : Obligations.DirectionProposed := by
  refine fun i ss => ⟨fun here => ?_, fun above => ?_, fun d here below => ?_⟩
  · simp [propose, here]
  · obtain fresh | ⟨d, here, above⟩ := above
    · simp [propose, fresh]
    · have apart : i ≠ d := Nat.ne_of_gt above
      simp [propose, here, above, apart]
  · have apart : i ≠ d := Nat.ne_of_lt below
    have not_above : ¬ d < i := Nat.not_lt_of_gt below
    rw [← bit_eq_byte]
    simp [propose, here, apart, not_above]

/-! ### The end of a complete pass (R295, R297) -/

/-- Validity, written out (R297). -/
theorem valid_iff {r : Rom} : r.valid = true ↔ r.byte 0 ≠ 0x00#8 ∧
    crc8 [r.byte 0, r.byte 1, r.byte 2, r.byte 3, r.byte 4, r.byte 5, r.byte 6] = r.byte 7 := by
  rw [Rom.valid, Bool.and_eq_true, bne_iff_ne, beq_iff_eq]
  rfl

theorem finishPass_valid {mode : SearchMode} {s : State} (valid : s.seq.workRom.valid = true) :
    finishPass mode s = yieldRom mode (commitRom s) := by
  rw [finishPass, if_pos valid]

theorem finishPass_invalid {mode : SearchMode} {s : State} (invalid : s.seq.workRom.valid ≠ true) :
    finishPass mode s = endPass (.invalidRom s.seq.workRom) s := by
  rw [finishPass, if_neg invalid]

theorem yieldRom_srchNext {mode : SearchMode} {s : State} (op : s.seq.op = some .srchNext) :
    yieldRom mode s = answerOk (.rom s.seq.workRom) s := by
  rw [yieldRom, op]
  rfl

theorem yieldRom_search {mode : SearchMode} {s : State} (op : s.seq.op = some .search) :
    yieldRom mode s = pushPhase [.srchBegin mode]
      { s with seq := { s.seq with found := s.seq.found ++ [s.seq.workRom] } } := by
  rw [yieldRom, if_pos op]

/-- Settles O54: what a complete pass does, by the validity of its identifier and the operation. -/
theorem passCommits : Obligations.PassCommits := by
  rintro s mode rest fate _ phase rfl
  rw [seqStep_cons fate phase, microStep]
  refine ⟨fun valid => ?_, fun invalid => ?_⟩
  · have commits := finishPass_valid (mode := mode) (s := setPhase rest s) (valid_iff.mpr valid)
    exact ⟨fun op => congrArg Host.Outcome.next (commits.trans (yieldRom_srchNext op)),
      fun op => congrArg Host.Outcome.next (commits.trans (yieldRom_search op))⟩
  · have ends := finishPass_invalid (mode := mode) (s := setPhase rest s) fun valid =>
      invalid.elim (valid_iff.mp valid).1 (absurd (valid_iff.mp valid).2)
    exact ⟨fun op => congrArg Host.Outcome.next (ends.trans (endPass_srchNext op)),
      fun op => congrArg Host.Outcome.next (ends.trans (endPass_search op))⟩

end Sys2Proof.Proofs
end

section
/-! The checksum of identifiers (45_search.md R304, R305). -/

namespace Sys2Proof.Proofs

open Sys2Proof.Machine Sys2Proof.Laws

/-- A register that takes its own lowest bit only shifts. -/
theorem crc8Bit_own (c : Byte) : crc8Bit c (c.getLsbD 0) = c >>> 1 := by
  simp [crc8Bit]

/-- A register that takes its own first `n` bits has shifted by `n`. -/
theorem foldl_crc8Bit_own (x : Byte) (n : Nat) :
    (List.range n).foldl (fun c k => crc8Bit c (x.getLsbD k)) x = x >>> n := by
  induction n with
  | zero => rfl
  | succ n ih =>
    have bit : x.getLsbD n = (x >>> n).getLsbD 0 := by simp
    rw [List.range_succ, List.foldl_append, ih, List.foldl_cons, List.foldl_nil, bit, crc8Bit_own,
      ← BitVec.shiftRight_add]

/-- A register that takes its own value as a data byte is empty. -/
theorem crc8Byte_own (x : Byte) : crc8Byte x x = 0x00#8 := by
  rw [crc8Byte, foldl_crc8Bit_own]
  exact BitVec.ushiftRight_eq_zero (Nat.le_refl 8)

/-- Bytes followed by their own checksum have the checksum 0. -/
theorem crc8_append_own (bs : List Byte) : crc8 (bs ++ [crc8 bs]) = 0x00#8 := by
  rw [crc8, List.foldl_append]
  exact crc8Byte_own (crc8 bs)

set_option maxRecDepth 4000 in
/-- Settles O56: the values are computed; the last byte of a valid identifier is the checksum of the others. -/
theorem crcFacts : Obligations.CrcFacts := by
  refine ⟨by decide, fun rom valid => ?_⟩
  have split : rom.bytes = [rom.byte 0, rom.byte 1, rom.byte 2, rom.byte 3, rom.byte 4, rom.byte 5,
      rom.byte 6] ++ [rom.byte 7] := rfl
  rw [split, ← (valid_iff.mp valid).2]
  exact crc8_append_own _

end Sys2Proof.Proofs
end

section
/-! The probes of a search on the reference bus (45_search.md R310, R311), and that bus at model start
(70_reset_and_hazards.md R362). -/

namespace Sys2Proof.Proofs

open Sys2Proof.Machine Sys2Proof.Laws

/-! ### One slave in one slot -/

theorem searching_iff {v : Slave} : v.searching = true ↔ v.st = .search := by
  rw [Slave.searching, beq_iff_eq]

/-- Only a searching slave pulls the line. -/
theorem searching_and_pulls (v : Slave) : (v.searching && v.pulls) = v.pulls := by
  unfold Slave.pulls
  split
  next search => rw [searching_iff.mpr search, Bool.true_and]
  · exact Bool.and_false _
  · exact Bool.and_false _

/-- A slave past its command byte does not wait for one again. -/
theorem advance_st_ne_cmd {v : Slave} (b : Bool) (heard : v.st ≠ .cmd) : (v.advance b).st ≠ .cmd := by
  unfold Slave.advance
  split
  · contradiction
  next search =>
    unfold Slave.takeSearchBit
    split_ifs <;> simp [search]
  · exact heard

/-- A slave out of the search stays out of it. -/
theorem advance_not_searching {v : Slave} (b : Bool) (heard : v.st ≠ .cmd) (out : v.searching = false) :
    (v.advance b).searching = false := by
  unfold Slave.advance
  split
  · contradiction
  next search => rw [searching_iff.mpr search] at out; cases out
  · exact out

/-- The slave at a phase of its position: the two probes and the third slot. -/
def atPhase (ph : Nat) (v : Slave) : Slave := { v with ph := ph }

section Slot

variable {v : Slave} (h : v.searching = true)
include h

theorem pulls_first : (atPhase 0 v).pulls = !v.rom.bit v.i := by
  simp [Slave.pulls, atPhase, searching_iff.mp h]

theorem pulls_second : (atPhase 1 v).pulls = v.rom.bit v.i := by
  simp [Slave.pulls, atPhase, searching_iff.mp h]

/-- A probe takes a searching slave to its next phase, whatever the master drives. -/
theorem advance_probe {ph : Nat} (b : Bool) (probe : ph < 2) :
    (atPhase ph v).advance b = atPhase (ph + 1) v := by
  simp [Slave.advance, atPhase, searching_iff.mp h, Slave.takeSearchBit, probe]

variable {d : Bool}

/-- A slave whose bit is not written leaves the search. -/
theorem advance_dropped (bit : v.rom.bit v.i ≠ d) :
    (atPhase 2 v).advance d = { atPhase 2 v with st := .off } := by
  simp [Slave.advance, atPhase, searching_iff.mp h, Slave.takeSearchBit, bit.symm]

/-- A slave whose bit is written goes on to the next position; after the last it leaves the search. -/
theorem advance_kept (bit : v.rom.bit v.i = d) : (atPhase 2 v).advance d =
    { v with ph := 0, i := v.i + 1, st := if v.i = 63 then .off else .search } := by
  subst bit
  by_cases last : v.i = 63 <;>
    simp [Slave.advance, atPhase, searching_iff.mp h, Slave.takeSearchBit, last]

theorem searching_advance_third :
    ((atPhase 2 v).advance d).searching = (v.rom.bit v.i == d && v.i != 63) := by
  by_cases bit : v.rom.bit v.i = d
  · rw [advance_kept h bit]
    by_cases last : v.i = 63 <;> simp [Slave.searching, bit, last]
  · rw [advance_dropped h bit, beq_eq_false_iff_ne.mpr bit]
    rfl

end Slot

/-! ### The bus in one slot -/

/-- The slaves that search after a slot are among those that searched before it. -/
theorem filter_searching_advance {l : List Slave} (heard : ∀ v ∈ l, v.st ≠ .cmd) (b : Bool) :
    (l.map (Slave.advance b)).filter Slave.searching =
      ((l.filter Slave.searching).map (Slave.advance b)).filter Slave.searching := by
  rw [List.filter_map, List.filter_map, List.filter_filter]
  refine congrArg _ (List.filter_congr fun v hv => ?_)
  cases out : v.searching
  · simp [advance_not_searching b (heard v hv) out]
  · simp

/-- A bus that has reached a phase of position `i`: not shorted, no slave waiting for a command byte, and
`found` the slaves that came to the first probe of the position. -/
structure Searching (bus : RefBus) (found : List Slave) (i ph : Nat) : Prop where
  sound : bus.shorted = false
  heard : ∀ v ∈ bus.slaves, v.st ≠ .cmd
  members : bus.slaves.filter Slave.searching = found.map (atPhase ph)
  place : ∀ v ∈ found, v.i = i ∧ v.ph = 0

/-- Where every searching slave stands at the first probe. -/
theorem searching_first {bus : RefBus} {i : Nat} (sound : bus.shorted = false)
    (heard : ∀ v ∈ bus.slaves, v.st ≠ .cmd)
    (place : ∀ v ∈ bus.slaves.filter Slave.searching, v.i = i ∧ v.ph = 0) :
    Searching bus (bus.slaves.filter Slave.searching) i 0 where
  sound := sound
  heard := heard
  members := by
    have same : ∀ v ∈ bus.slaves.filter Slave.searching, atPhase 0 v = v := fun v hv => by
      rw [atPhase, ← (place v hv).2]
    rw [List.map_congr_left same, List.map_id']
  place := place

section Position

variable {bus : RefBus} {found : List Slave} {i ph : Nat}

theorem Searching.searching (h : Searching bus found i ph) {v : Slave} (hv : v ∈ found) :
    v.searching = true :=
  have mem : atPhase ph v ∈ bus.slaves.filter Slave.searching := h.members ▸ List.mem_map_of_mem hv
  (List.mem_filter.mp mem).2

/-- The level read is what the searching slaves leave of it. -/
theorem Searching.read (h : Searching bus found i ph) :
    (bus.slot true).1 = found.all fun v => !(atPhase ph v).pulls := by
  have drivers : bus.slaves.any Slave.pulls = found.any fun v => (atPhase ph v).pulls := by
    calc bus.slaves.any Slave.pulls
      _ = bus.slaves.any fun v => v.searching && v.pulls := by simp only [searching_and_pulls]
      _ = (bus.slaves.filter Slave.searching).any Slave.pulls := List.any_filter.symm
      _ = found.any fun v => (atPhase ph v).pulls := by rw [h.members, List.any_map]; rfl
  rw [RefBus.slot, RefBus.level, h.sound, drivers, List.not_any_eq_all_not]
  rfl

theorem Searching.slot_searching (h : Searching bus found i ph) (b : Bool) :
    (bus.slot b).2.slaves.filter Slave.searching =
      (found.map fun v => (atPhase ph v).advance b).filter Slave.searching := by
  refine (filter_searching_advance h.heard b).trans ?_
  rw [h.members, List.map_map]
  rfl

/-- A probe takes the bus to the next phase of its position. -/
theorem Searching.probe (h : Searching bus found i ph) (b : Bool) (probe : ph < 2) :
    Searching (bus.slot b).2 found i (ph + 1) where
  sound := h.sound
  heard v hv := by
    obtain ⟨u, hu, rfl⟩ := List.mem_map.mp hv
    exact advance_st_ne_cmd b (h.heard u hu)
  members := by
    have moved : (found.map fun v => (atPhase ph v).advance b) = found.map (atPhase (ph + 1)) :=
      List.map_congr_left fun v hv => advance_probe (h.searching hv) b probe
    rw [h.slot_searching b, moved, List.filter_eq_self]
    intro v hv
    obtain ⟨u, hu, rfl⟩ := List.mem_map.mp hv
    exact (h.searching hu :)
  place := h.place

/-- The first probe reads the AND of the bits. -/
theorem Searching.read_first (h : Searching bus found i 0) :
    (bus.slot true).1 = found.all fun v => v.rom.bit i := by
  rw [h.read, Bool.eq_iff_iff, List.all_eq_true, List.all_eq_true]
  refine forall₂_congr fun v hv => ?_
  rw [pulls_first (h.searching hv), (h.place v hv).1, Bool.not_not]

/-- The second probe reads the AND of the complements. -/
theorem Searching.read_second (h : Searching bus found i 1) :
    (bus.slot true).1 = found.all fun v => !v.rom.bit i := by
  rw [h.read, Bool.eq_iff_iff, List.all_eq_true, List.all_eq_true]
  refine forall₂_congr fun v hv => ?_
  rw [pulls_second (h.searching hv), (h.place v hv).1]

/-- The third slot keeps the slaves whose bit is written, and none after the last position. -/
theorem Searching.third (h : Searching bus found i 2) (d : Bool) :
    (bus.slot d).2.slaves.filter Slave.searching =
      if i = 63 then [] else (found.filter fun v => v.rom.bit i == d).map fun v => { v with i := i + 1 } := by
  have stays : found.filter (Slave.searching ∘ fun v => (atPhase 2 v).advance d) =
      found.filter fun v => v.rom.bit i == d && i != 63 :=
    List.filter_congr fun v hv => by
      rw [Function.comp_apply, searching_advance_third (h.searching hv), (h.place v hv).1]
  rw [h.slot_searching d, List.filter_map, stays]
  split_ifs with last
  · simp [last]
  · have inside : (i != 63) = true := bne_iff_ne.mpr last
    simp only [inside, Bool.and_true]
    refine List.map_congr_left fun v hv => ?_
    obtain ⟨mem, bit⟩ := List.mem_filter.mp hv
    obtain ⟨rfl, ph⟩ := h.place v mem
    rw [advance_kept (h.searching mem) (beq_iff_eq.mp bit), if_neg last, ← ph,
      ← searching_iff.mp (h.searching mem)]

end Position

/-- The direction a triplet takes is the bit of a slave that took part. -/
theorem exists_bit_eq_directionTaken {found : List Slave} {i : Nat} {d t : Bool} (nonempty : found ≠ [])
    (taken : directionTaken (found.all fun v => v.rom.bit i) (found.all fun v => !v.rom.bit i) d =
      some t) : ∃ v ∈ found, v.rom.bit i = t := by
  obtain ⟨v, hv⟩ := List.exists_mem_of_ne_nil found nonempty
  cases ones : found.all fun v => v.rom.bit i <;> cases zeros : found.all fun v => !v.rom.bit i <;>
    rw [ones, zeros] at taken <;> cases taken
  case false.false =>
    obtain ⟨u, hu, zero⟩ := List.all_eq_false.mp ones
    obtain ⟨w, hw, one⟩ := List.all_eq_false.mp zeros
    cases d
    · exact ⟨u, hu, Bool.eq_false_of_not_eq_true zero⟩
    · exact ⟨w, hw, by simpa using one⟩
  case false.true => exact ⟨v, hv, by simpa using List.all_eq_true.mp zeros v hv⟩
  case true.false => exact ⟨v, hv, List.all_eq_true.mp ones v hv⟩

/-! ### The bus at model start (R362) -/

theorem reset_start (devices : List (Rom × Bool)) (shorted : Bool) :
    (RefBus.start devices shorted).reset.2 = RefBus.start devices shorted := by
  rw [RefBus.start, RefBus.reset, List.map_map]
  rfl

theorem start_devices (devices : List (Rom × Bool)) (shorted : Bool) :
    (RefBus.start devices shorted).slaves.map (fun v => (v.rom, v.alarm)) = devices := by
  rw [RefBus.start, List.map_map]
  exact List.map_id devices

/-- Settles O57: the three slots of a position in turn, and the bus at model start. -/
theorem probesOfReferenceBus : Obligations.ProbesOfReferenceBus := by
  refine ⟨?_, fun devices shorted _ => ⟨reset_start devices shorted, rfl, start_devices devices shorted⟩⟩
  rintro bus i _ _ _ sound heard - rfl place rfl rfl
  have first := searching_first sound heard place
  have second := first.probe true (by decide)
  refine ⟨first.read_first, second.read_second, (second.probe true (by decide)).third,
    fun d t nonempty taken => ?_⟩
  rw [first.read_first, second.read_second] at taken
  exact exists_bit_eq_directionTaken nonempty taken

end Sys2Proof.Proofs
end

section
/-! Entry to recovery (60_exceptions.md R334): from inside a `try` (43_sequencer_primitives.md R225), at the end of
`RESET` (44_busmaster_ops.md R260), and from the mode records of `STARTPULSE` (R233). -/

namespace Sys2Proof.Proofs

open Sys2Proof.Machine Sys2Proof.Laws

/-! ### The end of `RESET` (R260) -/

section ResetTail

variable {s : State}

theorem resetTail_of_short (short : s.seq.healthy = false) :
    resetTail s = enterRecovery .shortCircuit s.seq.phase s := by
  simp [resetTail, short]

theorem resetTail_of_overdrive (healthy : s.seq.healthy = true)
    (overdrive : s.seq.speed = s.cfg.speeds.overdrive) : resetTail s = s := by
  simp [resetTail, healthy, overdrive]

theorem resetTail_of_slower (healthy : s.seq.healthy = true)
    (slower : s.seq.speed ≠ s.cfg.speeds.overdrive) :
    resetTail s = pushPhase [.delay Config.tResetCompliance] s := by
  simp [resetTail, healthy, slower]

theorem seqStep_resetTail {rest : List Micro} (fate : Fate) (hp : s.seq.phase = .resetTail :: rest) :
    seqStep fate s = .next (resetTail (setPhase rest s)) := by
  rw [seqStep_cons fate hp, microStep]

end ResetTail

/-! ### The mode records of `STARTPULSE` (R233, R334) -/

section PulseMode

variable {c : Config} (spue : Bool)

theorem pulseMode_of_recovers (recovers : c.readings.pulseModeRecovers = true) :
    pulseMode c spue = recovering [send c (.modePulseEn spue true)] := by
  rw [pulseMode, if_pos recovers]

theorem pulseMode_of_bare (bare : c.readings.pulseModeRecovers = false) :
    pulseMode c spue = [send c (.modePulseEn spue true)] := by
  simp [pulseMode, bare]

end PulseMode

/-- Settles O42: the innermost handler ahead is the recovery attempt; `RESET` enters it by a test of its own; and
a lost mode record of `STARTPULSE` meets it just when the record stands in a `try`. -/
theorem recoveryEntry : Obligations.RecoveryEntry := by
  refine ⟨fun _ _ _ _ hp inside => raiseError_recover hp inside, fun s rest fate hp => ?_,
    fun s spue rest o hp ahead ho => ⟨fun recovers => ?_, fun bare => ?_⟩⟩
  · rw [seqStep_resetTail fate hp]
    refine ⟨fun short => ?_, fun healthy overdrive => ?_, fun healthy slower => ?_⟩
    · rw [resetTail_of_short (s := setPhase rest s) short]
      rfl
    · rw [resetTail_of_overdrive (s := setPhase rest s) healthy overdrive]
      rfl
    · rw [resetTail_of_slower (s := setPhase rest s) healthy slower]
      rfl
  · rw [pulseMode_of_recovers spue recovers] at hp
    exact runMoves_try_lost (p := []) hp rfl
  · rw [pulseMode_of_bare spue bare, List.singleton_append] at hp
    rw [seqStep_ctl_lost hp, raiseError_of_balanced (s := setPhase rest s) ahead ho]
    rfl

end Sys2Proof.Proofs
end
